-- ==== Sys2Proof/Word.lean ====
section
/-! DEFINITION. The widths of the machine (00_scope.md R7, R9). The spec numbers bits from 1, so bit n of the
spec is bit n - 1 of a `BitVec`. -/

namespace Sys2Proof

/-- A word of memory: 15 bits (R7). -/
abbrev Word := BitVec 15

/-- A 16-bit value, the width of A and Q (R7, 40_common_arithmetic.md R193). -/
abbrev Acc := BitVec 16

/-- A 12-bit address of the memory space (20_memory.md R100). -/
abbrev Addr := BitVec 12

/-- A 10-bit address field: erasable memory only (30_encoding.md R151). -/
abbrev EAddr := BitVec 10

/-- A channel number (20_memory.md R100). -/
abbrev ChanNo := BitVec 9

/-- The number of an erasable bank, E0 to E7 (20_memory.md R102). -/
abbrev EBank := BitVec 3

/-- An offset in an erasable bank (20_memory.md R103). -/
abbrev EOff := BitVec 8

end Sys2Proof
end

