-- ==== Sys2Proof/Syntax.lean ====
section
/-! DEFINITION. The instructions: one constructor for each of the 60 rows of spec/opcode_table.json. -/

namespace Sys2Proof

/-- The rows of the opcode table. `k` is an address operand, `f` the address field of a double-precision instruction
as encoded (`f = k + 1`, 30_encoding.md R153), `c` a channel number. The rows of kind alias and synonym (R158) come
last; the decoder gives none of them (R152, R160; log 15). -/
inductive Instr where
  -- basic instructions, 30_encoding.md R154
  | tc (k : Addr)
  | ccs (k : EAddr)
  | tcf (k : Addr)
  | das (f : EAddr)
  | lxch (k : EAddr)
  | incr (k : EAddr)
  | ads (k : EAddr)
  | ca (k : Addr)
  | cs (k : Addr)
  | index (k : EAddr)
  | dxch (f : EAddr)
  | ts (k : EAddr)
  | xch (k : EAddr)
  | ad (k : Addr)
  | mask (k : Addr)
  -- extracode instructions, 30_encoding.md R155
  | read (c : ChanNo)
  | write (c : ChanNo)
  | rand (c : ChanNo)
  | wand (c : ChanNo)
  | ror (c : ChanNo)
  | wor (c : ChanNo)
  | rxor (c : ChanNo)
  | edrupt (c : ChanNo)
  | dv (k : EAddr)
  | bzf (k : Addr)
  | msu (k : EAddr)
  | qxch (k : EAddr)
  | aug (k : EAddr)
  | dim (k : EAddr)
  | dca (f : Addr)
  | dcs (f : Addr)
  | indexExt (k : Addr)
  | su (k : EAddr)
  | bzmf (k : Addr)
  | mp (k : Addr)
  -- special words, 30_encoding.md R157
  | relint
  | inhint
  | extend
  | resume
  -- rows of kind alias, 30_encoding.md R158
  | xxalq
  | xlq
  | returnQ
  | noop
  | ddoubl
  | zl
  | com
  | dtcf
  | dtcb
  | ovsk
  | tcaa
  | double
  | zq
  | dcom
  | square
  -- rows of kind synonym, 30_encoding.md R158
  | tcr (k : Addr)
  | cae (k : Addr)
  | caf (k : Addr)
  | ndx (k : EAddr)
  | msk (k : Addr)
  | ndxExt (k : Addr)
deriving DecidableEq, Repr

/-- The instruction an alias or synonym row names (30_encoding.md R158); every other instruction is its own. -/
def Instr.canonical : Instr → Instr
  | .xxalq => .tc 0
  | .xlq => .tc 1
  | .returnQ => .tc 2
  | .noop => .ca 0
  | .ddoubl => .das 1
  | .zl => .lxch 7
  | .com => .cs 0
  | .dtcf => .dxch 5
  | .dtcb => .dxch 6
  | .ovsk => .ts 0
  | .tcaa => .ts 5
  | .double => .ad 0
  | .zq => .qxch 7
  | .dcom => .dcs 1
  | .square => .mp 0
  | .tcr k => .tc k
  | .cae k => .ca k
  | .caf k => .ca k
  | .ndx k => .index k
  | .msk k => .mask k
  | .ndxExt k => .indexExt k
  | .tc k => .tc k
  | .ccs k => .ccs k
  | .tcf k => .tcf k
  | .das f => .das f
  | .lxch k => .lxch k
  | .incr k => .incr k
  | .ads k => .ads k
  | .ca k => .ca k
  | .cs k => .cs k
  | .index k => .index k
  | .dxch f => .dxch f
  | .ts k => .ts k
  | .xch k => .xch k
  | .ad k => .ad k
  | .mask k => .mask k
  | .read c => .read c
  | .write c => .write c
  | .rand c => .rand c
  | .wand c => .wand c
  | .ror c => .ror c
  | .wor c => .wor c
  | .rxor c => .rxor c
  | .edrupt c => .edrupt c
  | .dv k => .dv k
  | .bzf k => .bzf k
  | .msu k => .msu k
  | .qxch k => .qxch k
  | .aug k => .aug k
  | .dim k => .dim k
  | .dca f => .dca f
  | .dcs f => .dcs f
  | .indexExt k => .indexExt k
  | .su k => .su k
  | .bzmf k => .bzmf k
  | .mp k => .mp k
  | .relint => .relint
  | .inhint => .inhint
  | .extend => .extend
  | .resume => .resume

end Sys2Proof
end

