-- ==== Sys2Proof/WellFormed.lean ====
section
/-! DEFINITION. Which terms of `Instr` are instructions the encoding can hold. Widths are in the types; what is left are
the operand constraints of 30_encoding.md R159 and, for CAE and CAF, of 42_load_store_exchange.md R260. -/

namespace Sys2Proof

/-- The two most significant bits of the address are not 00: the address is in fixed memory (30_encoding.md R154,
R155: TCF, BZF, BZMF). -/
def isFixedAddr (k : Addr) : Bool := k.extractLsb' 10 2 != 0#2

/-- Well-formed: TCF, BZF and BZMF name fixed memory (with those bits 00 the word is CCS, DV or SU, R159); CAE names
erasable and CAF fixed memory (R260). -/
def Instr.wellFormed : Instr → Bool
  | .tcf k => isFixedAddr k
  | .bzf k => isFixedAddr k
  | .bzmf k => isFixedAddr k
  | .cae k => !isFixedAddr k
  | .caf k => isFixedAddr k
  | _ => true

/-- The words that are this instruction only when INDEX delivered them (BLIT = 1): TC 3, TC 4, TC 6 and basic INDEX 17
(30_encoding.md R157, 45_special_control.md R366). -/
def Instr.onlyLiteral (i : Instr) : Bool :=
  i.canonical == .tc 3 || i.canonical == .tc 4 || i.canonical == .tc 6 || i.canonical == .index 0o17#10

/-- The four special words, recognised only when BLIT = 0 (30_encoding.md R157). -/
def Instr.isSpecial : Instr → Bool
  | .relint => true
  | .inhint => true
  | .extend => true
  | .resume => true
  | _ => false

/-- `blit` is a value of BLIT under which the instruction's word decodes to it. -/
def Instr.fitsBlit (i : Instr) (blit : Bool) : Bool :=
  (!i.onlyLiteral || blit) && (!i.isSpecial || !blit)

end Sys2Proof
end

