-- ==== Sys2Proof/Decode.lean ====
section
/-! DEFINITION. The decoder (30_encoding.md R160), the encoder (R154, R155, R157, R158), and the form in which the
host asks for a row of the opcode table. -/

namespace Sys2Proof

/-- The code, bits 15 to 13 (R151). -/
def codeOf (w : Word) : BitVec 3 := w.extractLsb' 12 3

/-- The quarter code, bits 12 to 11 (R151). -/
def qcOf (w : Word) : BitVec 2 := w.extractLsb' 10 2

/-- The peripheral code, bits 12 to 10 (R151). -/
def pcOf (w : Word) : BitVec 3 := w.extractLsb' 9 3

/-- The 12-bit address, bits 12 to 1 (R151). -/
def a12Of (w : Word) : Addr := w.extractLsb' 0 12

/-- The 10-bit address, bits 10 to 1 (R151). -/
def a10Of (w : Word) : EAddr := w.extractLsb' 0 10

/-- The channel number, bits 9 to 1 (R151). -/
def c9Of (w : Word) : ChanNo := w.extractLsb' 0 9

/-- The special words of R157. -/
def decodeSpecial (w : Word) : Option Instr :=
  if w = 0o00003#15 then some .relint
  else if w = 0o00004#15 then some .inhint
  else if w = 0o00006#15 then some .extend
  else if w = 0o50017#15 then some .resume
  else none

/-- The basic instructions, R154. -/
def decodeBasic (w : Word) : Instr :=
  match (codeOf w).toNat with
  | 0 => .tc (a12Of w)
  | 1 => if qcOf w = 0 then .ccs (a10Of w) else .tcf (a12Of w)
  | 2 =>
    match (qcOf w).toNat with
    | 0 => .das (a10Of w)
    | 1 => .lxch (a10Of w)
    | 2 => .incr (a10Of w)
    | _ => .ads (a10Of w)
  | 3 => .ca (a12Of w)
  | 4 => .cs (a12Of w)
  | 5 =>
    match (qcOf w).toNat with
    | 0 => .index (a10Of w)
    | 1 => .dxch (a10Of w)
    | 2 => .ts (a10Of w)
    | _ => .xch (a10Of w)
  | 6 => .ad (a12Of w)
  | _ => .mask (a12Of w)

/-- The extracode instructions, R155. -/
def decodeExtra (w : Word) : Instr :=
  match (codeOf w).toNat with
  | 0 =>
    match (pcOf w).toNat with
    | 0 => .read (c9Of w)
    | 1 => .write (c9Of w)
    | 2 => .rand (c9Of w)
    | 3 => .wand (c9Of w)
    | 4 => .ror (c9Of w)
    | 5 => .wor (c9Of w)
    | 6 => .rxor (c9Of w)
    | _ => .edrupt (c9Of w)
  | 1 => if qcOf w = 0 then .dv (a10Of w) else .bzf (a12Of w)
  | 2 =>
    match (qcOf w).toNat with
    | 0 => .msu (a10Of w)
    | 1 => .qxch (a10Of w)
    | 2 => .aug (a10Of w)
    | _ => .dim (a10Of w)
  | 3 => .dca (a12Of w)
  | 4 => .dcs (a12Of w)
  | 5 => .indexExt (a12Of w)
  | 6 => if qcOf w = 0 then .su (a10Of w) else .bzmf (a12Of w)
  | _ => .mp (a12Of w)

/-- `Decode(EXT, BLIT, w)`, R160: total on every flag and word (R156). -/
def decode (ext blit : Bool) (w : Word) : Instr :=
  if ext then decodeExtra w
  else if blit then decodeBasic w
  else (decodeSpecial w).getD (decodeBasic w)

/-- A word of format A12 (R151). -/
def word12 (code : BitVec 3) (k : Addr) : Word := code ++ k

/-- A word of format A10 (R151). -/
def word10 (code : BitVec 3) (qc : BitVec 2) (k : EAddr) : Word := code ++ (qc ++ k : Addr)

/-- A word of format CH9 (R151): code 0 and a peripheral code. -/
def word9 (pc : BitVec 3) (c : ChanNo) : Word := 0#3 ++ (pc ++ c : Addr)

/-- The word of an instruction, from the "octal" columns of R154, R155, R157 and R158. -/
def encode : Instr → Word
  | .tc k => word12 0 k
  | .ccs k => word10 1 0 k
  | .tcf k => word12 1 k
  | .das f => word10 2 0 f
  | .lxch k => word10 2 1 k
  | .incr k => word10 2 2 k
  | .ads k => word10 2 3 k
  | .ca k => word12 3 k
  | .cs k => word12 4 k
  | .index k => word10 5 0 k
  | .dxch f => word10 5 1 f
  | .ts k => word10 5 2 k
  | .xch k => word10 5 3 k
  | .ad k => word12 6 k
  | .mask k => word12 7 k
  | .read c => word9 0 c
  | .write c => word9 1 c
  | .rand c => word9 2 c
  | .wand c => word9 3 c
  | .ror c => word9 4 c
  | .wor c => word9 5 c
  | .rxor c => word9 6 c
  | .edrupt c => word9 7 c
  | .dv k => word10 1 0 k
  | .bzf k => word12 1 k
  | .msu k => word10 2 0 k
  | .qxch k => word10 2 1 k
  | .aug k => word10 2 2 k
  | .dim k => word10 2 3 k
  | .dca f => word12 3 f
  | .dcs f => word12 4 f
  | .indexExt k => word12 5 k
  | .su k => word10 6 0 k
  | .bzmf k => word12 6 k
  | .mp k => word12 7 k
  | .relint => 0o00003#15
  | .inhint => 0o00004#15
  | .extend => 0o00006#15
  | .resume => 0o50017#15
  | .xxalq => 0o00000#15
  | .xlq => 0o00001#15
  | .returnQ => 0o00002#15
  | .noop => 0o30000#15
  | .ddoubl => 0o20001#15
  | .zl => 0o22007#15
  | .com => 0o40000#15
  | .dtcf => 0o52005#15
  | .dtcb => 0o52006#15
  | .ovsk => 0o54000#15
  | .tcaa => 0o54005#15
  | .double => 0o60000#15
  | .zq => 0o22007#15
  | .dcom => 0o40001#15
  | .square => 0o70000#15
  | .tcr k => word12 0 k
  | .cae k => word12 3 k
  | .caf k => word12 3 k
  | .ndx k => word10 5 0 k
  | .msk k => word12 7 k
  | .ndxExt k => word12 5 k

/-- The Extracode flag under which an instruction's word means it (R152). -/
def extOf : Instr → Bool
  | .read _ | .write _ | .rand _ | .wand _ | .ror _ | .wor _ | .rxor _ | .edrupt _ | .dv _ | .bzf _ | .msu _ | .qxch _
  | .aug _ | .dim _ | .dca _ | .dcs _ | .indexExt _ | .su _ | .bzmf _ | .mp _ | .zq | .dcom | .square | .ndxExt _ => true
  | .tc _ | .ccs _ | .tcf _ | .das _ | .lxch _ | .incr _ | .ads _ | .ca _ | .cs _ | .index _ | .dxch _ | .ts _ | .xch _
  | .ad _ | .mask _ | .relint | .inhint | .extend | .resume | .xxalq | .xlq | .returnQ | .noop | .ddoubl | .zl | .com
  | .dtcf | .dtcb | .ovsk | .tcaa | .double | .tcr _ | .cae _ | .caf _ | .ndx _ | .msk _ => false

/-- Why bits handed in by number are no instruction: the machine itself refuses none (R156). -/
inductive DecodeError where
  /-- The number of bits is not that of a key, EXT and a word (R152). -/
  | keyLength
  /-- The number does not fit in the bits of a key. -/
  | keyRange
deriving DecidableEq, Repr

/-- The instruction of a 16-bit key `EXT ++ w` of the opcode table (R152), read with BLIT = 0. -/
def decodeKey (nbits w : Nat) : Except DecodeError Instr :=
  if nbits ≠ 16 then .error .keyLength
  else if 2 ^ 16 ≤ w then .error .keyRange
  else .ok (decode (w.testBit 15) false (BitVec.ofNat 15 w))

/-- The instruction the decoder reads from a row's bits, numbered as the table numbers them: bit 15 is EXT. -/
def decodeTableWord (nbits w : Nat) : Option Instr :=
  match decodeKey nbits w with
  | .ok i => some i
  | .error _ => none

end Sys2Proof
end

