-- ==== Sys2Proof/Config.lean ====
section
/-! DEFINITION. What an implementation fixes and the values the spec leaves free: constants with no body, so that
nothing can be proved of the value they take. -/

namespace Sys2Proof

/-- The word a read gives when no rope is selected: the parameter `NoRopeWord` (20_memory.md R107, decision D10,
93 U1). Log 4. -/
opaque Config.noRopeWord : Word

/-- What DV leaves in A and L when the divisor is too small (43_arithmetic_logic.md R313, decision D11, 93 U2: any
value, chosen afresh each time). The first argument is the state's free-value counter, the others the dividend words
and the divisor. Log 5. -/
opaque Config.dvNonsense : Nat → Word → Word → Word → Acc × Word

/-- What SQUARE leaves in A and L when A holds overflow (43_arithmetic_logic.md R312, 93 U8: any value). The first
argument is the state's free-value counter, the second A. Log 6. -/
opaque Config.squareMessy : Nat → Acc → Acc × Word

end Sys2Proof
end

