-- ==== Sys2Proof/Machine/State.lean ====
section
/-! DEFINITION. The state of the machine (10_state.md R20), what its environment can do at a step boundary
(60_exceptions.md R551), the reasons a step can stop, and the state after power-up (70_reset_and_hazards.md R571). -/

namespace Sys2Proof.Machine

/-- A sparse memory of 15-bit words by key. Canonical form: keys strictly rising, no word equal to 0, which is what
an unlisted key reads as (log 1, 2, 3). The unit is the word, because the machine has no byte (20_memory.md R113). -/
abbrev Memory := List (Nat × Word)

/-- The ten interrupts, in the order of their vectors (60_exceptions.md R521). -/
inductive Interrupt where
  | t6rupt
  | t5rupt
  | t3rupt
  | t4rupt
  | keyrupt1
  | keyrupt2
  | uprupt
  | downrupt
  | radarRupt
  | rupt10
deriving DecidableEq, Repr

/-- RUPTREQ[1..10], the request latches (10_state.md R36). -/
structure Latches where
  t6rupt : Bool
  t5rupt : Bool
  t3rupt : Bool
  t4rupt : Bool
  keyrupt1 : Bool
  keyrupt2 : Bool
  uprupt : Bool
  downrupt : Bool
  radarRupt : Bool
  rupt10 : Bool
deriving DecidableEq, Repr

/-- The counters PINC serves (46_unprogrammed_sequences.md R381); RHCP, RHCY and RHCR are those of the hand controller
(10_state.md R58, R49, log 41). -/
inductive PincCounter where
  | time1
  | time2
  | time3
  | time4
  | time5
  | pipax
  | pipay
  | pipaz
  | rhcp
  | rhcy
  | rhcr
deriving DecidableEq, Repr

/-- The counters MINC serves (R384, 10_state.md R57; RHCP, RHCY and RHCR by R58, R49, log 41). -/
inductive MincCounter where
  | pipax
  | pipay
  | pipaz
  | rhcp
  | rhcy
  | rhcr
deriving DecidableEq, Repr

/-- The counters PCDU and MCDU serve (R383, R388). -/
inductive CduCounter where
  | cdux
  | cduy
  | cduz
  | opty
  | optx
deriving DecidableEq, Repr

/-- The counters SHINC and SHANC serve (R386, R387). -/
inductive ShiftCounter where
  | inlink
  | rnrad
  | outlink
deriving DecidableEq, Repr

/-- A counter request: a sequence and a counter of the pairings of R392 (R380). DINC serves TIME6 only. The sequences
of R389 have no constructor: "`Env` never requests them" (log 13). -/
inductive CounterReq where
  | pinc (c : PincCounter)
  | minc (c : MincCounter)
  | pcdu (c : CduCounter)
  | mcdu (c : CduCounter)
  | dinc
  | shinc (c : ShiftCounter)
  | shanc (c : ShiftCounter)
deriving DecidableEq, Repr

/-- The command counters, whose drain is the parameter `CmdCounterDrain` (R394). -/
inductive CommandCounter where
  | gyroctr
  | cduxcmd
  | cduycmd
  | cduzcmd
deriving DecidableEq, Repr

/-- One act of the environment between two steps (60_exceptions.md R551, log 8 to 11). -/
inductive EnvEvent where
  /-- Post a counter request, (1). -/
  | count (r : CounterReq)
  /-- A keystroke of the main DSKY, (2). -/
  | keyRupt1
  /-- A keystroke of the second DSKY, (2). -/
  | keyRupt2
  /-- The downlink shift register is ready, (2). -/
  | downRupt
  /-- The radar pulse sequence has been sent, (2). -/
  | radarRupt
  /-- RUPT10 is requested, (2); only under a trap condition (R522). -/
  | handRupt
  /-- An input channel returns `v` from now on, (3). -/
  | channel (c : ChanNo) (v : Word)
  /-- LOSCALAR advances by one (10_state.md R78). -/
  | scaler
  /-- The hardware drains a command counter, (6). -/
  | drain (c : CommandCounter)
deriving DecidableEq, Repr

/-- What the environment does at one step boundary (92_eei_decisions.md D19, D20). -/
structure Boundary where
  /-- GOJ is asserted. -/
  goj : Bool
  /-- The other acts, in order. -/
  events : List EnvEvent
  /-- Which pending counter request is served, counted modulo how many there are. -/
  serve : Nat
deriving DecidableEq, Repr

/-- What the environment observes, (4) of R551. -/
inductive Observation where
  /-- A channel write. -/
  | chanWrite (c : ChanNo) (v : Acc)
  /-- The pulse of a DINC that finds TIME6 above +0 (46_unprogrammed_sequences.md R391). -/
  | pout
  /-- The pulse of a DINC that finds TIME6 below -0. -/
  | mout
  /-- The pulse of a DINC that finds TIME6 at zero. -/
  | zout
deriving DecidableEq, Repr

/-- The whole state of the machine (10_state.md R20). -/
structure State where
  /-- The accumulator (R22). -/
  a : Acc
  /-- The lower product register, also channel 1 (R23). -/
  l : Word
  /-- The return register, also channel 2 (R24). -/
  q : Acc
  /-- The field EBANK of EB and BB (R25, R27). -/
  ebank : EBank
  /-- The field FBANK of FB and BB (R26, R27). -/
  fbank : BitVec 5
  /-- The program counter: between steps the address after that of the word in B (R28). -/
  z : Addr
  /-- The next instruction (R31). -/
  b : Word
  /-- B was formed by INDEX (R32). -/
  blit : Bool
  /-- The Extracode flag (R33). -/
  ext : Bool
  /-- The interrupt-inhibit flag of INHINT and RELINT (R34). -/
  inh : Bool
  /-- A service routine is in progress (R35). -/
  isr : Bool
  /-- The interrupt request latches (R36). -/
  ruptReq : Latches
  /-- Bits 7 to 5 of channel 7 (R80); bit 7 is the most significant. -/
  sbank : BitVec 3
  /-- E[b][o] at key b * 0o400 + o (20_memory.md R103); E[0][0] to E[0][7] are never used (R21). -/
  erasable : Memory
  /-- Rope[b][o] at key b * 0o2000 + o (20_memory.md R105, R106). -/
  rope : Memory
  /-- Chan[c] at key c, for every channel but 1, 2 and 7 (R76 to R81). -/
  chan : Memory
  /-- The pending counter requests, oldest first (46_unprogrammed_sequences.md R380). -/
  pending : List CounterReq
  /-- The input channels of `ChannelEnv` besides those that the spec itself calls so, and but for those of this list that can
  not be inputs (`isInput`): their reads return what the environment presents (92_eei_decisions.md D18, log 11). -/
  inputChans : List ChanNo
  /-- What the environment does at the coming step boundaries; afterwards it does nothing (log 8). -/
  env : List Boundary
  /-- What the environment has observed, newest first (log 18). -/
  observed : List Observation
  /-- The elapsed time in MCT (40_common_arithmetic.md R204). -/
  mct : Nat
  /-- The model's own: how many free values have been drawn (log 7). -/
  freeCount : Nat
deriving DecidableEq, Repr

/-- The reasons for a fault: none, since no instruction can trap (60_exceptions.md R533). -/
inductive Fault where
deriving DecidableEq, Repr

/-- The reasons for a refusal. -/
inductive Refusal where
  /-- Raised by an arm of `exec` that has no meaning yet; no arm is without one. Safe: the model stops where the
  machine goes on. -/
  | notModelled (mnemonic : String)
  /-- Raised by DAS, DXCH, DCA and DCS with address field 0 (20_memory.md R114, 93_implementation_defined.md U3, which
  says "refuse"; log 12). Safe: the model stops where the machine goes on. -/
  | dpFieldZero (mnemonic : String)
deriving DecidableEq, Repr

/-- What a step or an instruction answers. -/
abbrev Result := Host.Outcome State Fault Refusal

/-- No latch set. -/
def Latches.clear : Latches :=
  { t6rupt := false, t5rupt := false, t3rupt := false, t4rupt := false, keyrupt1 := false, keyrupt2 := false,
    uprupt := false, downrupt := false, radarRupt := false, rupt10 := false }

/-- The machine after power-up: GOJ has been performed once on the initial state (70_reset_and_hazards.md R570, R571).
Every register whose value R571 leaves to `InitState` is 0 (DESIGN CHOICE, log 1, 2, 3); nothing is pending and the
elapsed time is that of the GOJ (log 17). -/
def State.reset : State where
  a := 0
  l := 0
  q := 0
  ebank := 0
  fbank := 0
  z := 0o4001
  b := 0
  blit := false
  ext := false
  inh := false
  isr := false
  ruptReq := Latches.clear
  sbank := 0
  erasable := []
  rope := []
  chan := []
  pending := []
  inputChans := []
  env := []
  observed := []
  mct := 2
  freeCount := 0

end Sys2Proof.Machine
end

