-- ==== Sys2Proof/Machine/Flags.lean ====
section
/-! DEFINITION. Number formats, the overflow of a 16-bit value, overflow correction and one's-complement addition
(40_common_arithmetic.md R190 to R196, 43_arithmetic_logic.md R309). -/

namespace Sys2Proof.Machine

/-- The overflow of a 16-bit value (R193). -/
inductive Ovf where
  | none
  | pos
  | neg
deriving DecidableEq, Repr

/-- `ovf(v)`, R193: bits 16 and 15 agree, or bit 16 says which overflow. -/
def ovf (v : Acc) : Ovf :=
  if v.getLsbD 15 = v.getLsbD 14 then .none
  else if v.getLsbD 15 then .neg
  else .pos

/-- `ovc(v)`, R194: bit 16 and bits 14 to 1. -/
def ovc (v : Acc) : Word := v.extractLsb' 15 1 ++ v.extractLsb' 0 14

/-- `sext_16(w)`, R195. -/
def sext16 (w : Word) : Acc := w.extractLsb' 14 1 ++ w

/-- `zext_16` of an address, as TC stores it in Q (41_control_transfer.md R230). -/
def zext16 (z : Addr) : Acc := z.setWidth 16

/-- `zext_15` of an address, as Z reads (10_state.md R28). -/
def zext15 (z : Addr) : Word := z.setWidth 15

/-- `add1c16`, R196: the sum with end-around carry. -/
def add1c16 (x y : Acc) : Acc :=
  let sum := x.toNat + y.toNat
  if 0o177777 < sum then BitVec.ofNat 16 (sum + 1) else BitVec.ofNat 16 sum

/-- `sub1c16`, R196. -/
def sub1c16 (x y : Acc) : Acc := add1c16 x (~~~y)

/-- `add1c15`, R196. -/
def add1c15 (x y : Word) : Word :=
  let sum := x.toNat + y.toNat
  if 0o77777 < sum then BitVec.ofNat 15 (sum + 1) else BitVec.ofNat 15 sum

/-- +1 as a 16-bit value. -/
def plusOne : Acc := 0o000001#16

/-- -1 as a 16-bit value. -/
def minusOne : Acc := 0o177776#16

/-- The 14 magnitude bits of a word. -/
def magnitude (w : Word) : Nat := (w.extractLsb' 0 14).toNat

/-- `val(w)`, R190. -/
def val (w : Word) : Int := if w.getLsbD 14 then -(magnitude (~~~w) : Int) else (magnitude w : Int)

/-- `val2(hi, lo)`, R191. -/
def val2 (hi lo : Word) : Int := val hi * 2 ^ 14 + val lo

/-- The word of a sign (true is negative) and a 14-bit magnitude: `word(s, m)` of 43_arithmetic_logic.md R313. -/
def signedWord (negative : Bool) (m : Nat) : Word :=
  let w : Word := 0#1 ++ BitVec.ofNat 14 m
  if negative then ~~~w else w

/-- The carry between the halves of a double-precision sum (43_arithmetic_logic.md R309): +1, -1 or +0. -/
def carry (v : Acc) : Acc :=
  match ovf v with
  | .pos => plusOne
  | .neg => minusOne
  | .none => 0o000000#16

/-- +0 or -0: all 16 bits equal. -/
def isZero16 (v : Acc) : Bool := v == 0o000000#16 || v == 0o177777#16

/-- +0 or -0 of 15 bits. -/
def isZero15 (w : Word) : Bool := w == 0o00000#15 || w == 0o77777#15

end Sys2Proof.Machine
end

