-- ==== Sys2Proof/Machine/Ops.lean ====
section
/-! DEFINITION. The named operations over the state: memory and its map, registers, channels, fetching, the request
latches, taking an interrupt and returning from one, and GOJ (20_memory.md, 40_common_arithmetic.md R200 to R206,
60_exceptions.md R523 to R529, 70_reset_and_hazards.md R570). -/

namespace Sys2Proof.Machine

/-! ### Sparse memories -/

/-- The word at key `k`; an unlisted key reads as 0. -/
def Memory.read : Memory → Nat → Word
  | [], _ => 0#15
  | (a, w) :: rest, k => if a = k then w else Memory.read rest k

/-- The memory without key `k`. -/
def Memory.erase : Memory → Nat → Memory
  | [], _ => []
  | (a, w) :: rest, k => if a = k then Memory.erase rest k else (a, w) :: Memory.erase rest k

/-- The memory with `(k, w)` put before the first key above `k`. -/
def Memory.insert : Memory → Nat → Word → Memory
  | [], k, w => [(k, w)]
  | (a, v) :: rest, k, w => if k < a then (k, w) :: (a, v) :: rest else (a, v) :: Memory.insert rest k w

/-- The memory with `w` at key `k`; writing 0 removes the entry. -/
def Memory.write (m : Memory) (k : Nat) (w : Word) : Memory :=
  if w = 0#15 then m.erase k else (m.erase k).insert k w

/-- Canonical form above a bound: keys from `lo` up to below `hi`, strictly rising, and no word 0. -/
def Memory.wf (lo hi : Nat) : Memory → Bool
  | [] => true
  | (a, w) :: rest => decide (lo ≤ a) && decide (a < hi) && w != 0#15 && Memory.wf (a + 1) hi rest

/-! ### Named updates -/

/-- The state with field `a` replaced. -/
def State.setA (s : State) (v : Acc) : State := { s with a := v }

/-- The state with field `l` replaced. -/
def State.setL (s : State) (v : Word) : State := { s with l := v }

/-- The state with field `q` replaced. -/
def State.setQ (s : State) (v : Acc) : State := { s with q := v }

/-- The state with field `ebank` replaced. -/
def State.setEbank (s : State) (v : EBank) : State := { s with ebank := v }

/-- The state with field `fbank` replaced. -/
def State.setFbank (s : State) (v : BitVec 5) : State := { s with fbank := v }

/-- The state with field `z` replaced. -/
def State.setZ (s : State) (v : Addr) : State := { s with z := v }

/-- The state with field `b` replaced. -/
def State.setB (s : State) (v : Word) : State := { s with b := v }

/-- The state with field `blit` replaced. -/
def State.setBlit (s : State) (v : Bool) : State := { s with blit := v }

/-- The state with field `ext` replaced. -/
def State.setExt (s : State) (v : Bool) : State := { s with ext := v }

/-- The state with field `inh` replaced. -/
def State.setInh (s : State) (v : Bool) : State := { s with inh := v }

/-- The state with field `isr` replaced. -/
def State.setIsr (s : State) (v : Bool) : State := { s with isr := v }

/-- The state with field `ruptReq` replaced. -/
def State.setRuptReq (s : State) (v : Latches) : State := { s with ruptReq := v }

/-- The state with field `sbank` replaced. -/
def State.setSbank (s : State) (v : BitVec 3) : State := { s with sbank := v }

/-- The state with field `erasable` replaced. -/
def State.setErasable (s : State) (v : Memory) : State := { s with erasable := v }

/-- The state with field `chan` replaced. -/
def State.setChan (s : State) (v : Memory) : State := { s with chan := v }

/-- The state with field `pending` replaced. -/
def State.setPending (s : State) (v : List CounterReq) : State := { s with pending := v }

/-- The state with field `inputChans` replaced. -/
def State.setInputChans (s : State) (v : List ChanNo) : State := { s with inputChans := v }

/-- The state with field `env` replaced. -/
def State.setEnv (s : State) (v : List Boundary) : State := { s with env := v }

/-- The state with field `observed` replaced. -/
def State.setObserved (s : State) (v : List Observation) : State := { s with observed := v }

/-- The state with field `mct` replaced. -/
def State.setMct (s : State) (v : Nat) : State := { s with mct := v }

/-- The state with field `freeCount` replaced. -/
def State.setFreeCount (s : State) (v : Nat) : State := { s with freeCount := v }

/-- The elapsed time grows by `n` MCT (40_common_arithmetic.md R204). -/
def State.tick (s : State) (n : Nat) : State := s.setMct (s.mct + n)

/-! ### Resolving an address (20_memory.md R100 to R109) -/

/-- The central registers, addresses 0 to 7 (10_state.md R22 to R29). -/
inductive CpuReg where
  | a
  | l
  | q
  | eb
  | fb
  | z
  | bb
  | zero
deriving DecidableEq, Repr

/-- What an address resolves to (R109). -/
inductive Loc where
  /-- A central register. -/
  | reg (r : CpuReg)
  /-- The cell E[bank][off]. -/
  | eras (bank : EBank) (off : EOff)
  /-- The word Rope[bank][off], the bank one of 0o00 to 0o43. -/
  | fixed (bank : Nat) (off : BitVec 10)
  /-- No rope is selected (R107). -/
  | noRope
deriving DecidableEq, Repr

/-- The central register at an offset of bank E0 (10_state.md R21). -/
def cpuRegAt (off : EOff) : Option CpuReg :=
  match off.toNat with
  | 0 => some .a
  | 1 => some .l
  | 2 => some .q
  | 3 => some .eb
  | 4 => some .fb
  | 5 => some .z
  | 6 => some .bb
  | 7 => some .zero
  | _ => none

/-- The bank of `EraseCell(a)`, R103: bits 11 to 9 of an unswitched address, EBANK in the window. -/
def eraseBank (s : State) (k : Addr) : EBank := if k.toNat ≤ 0o1377 then k.extractLsb' 8 3 else s.ebank

/-- The offset of `EraseCell(a)`, R103: `a mod 0o400`, which in the window is `a - 0o1400`. -/
def eraseOff (k : Addr) : EOff := k.extractLsb' 0 8

/-- An erasable cell, or the central register that stands for it (R109, 10_state.md R21). -/
def eraseLoc (bank : EBank) (off : EOff) : Loc :=
  if bank = 0#3 then
    match cpuRegAt off with
    | some r => .reg r
    | none => .eras bank off
  else .eras bank off

/-- `FixedBank()`, R106. -/
def fixedBank (s : State) : Option Nat :=
  if s.fbank.toNat < 0o30 then some s.fbank.toNat
  else if s.sbank.getLsbD 2 = false then some s.fbank.toNat
  else if s.sbank = 0b100#3 then some (s.fbank.toNat + 0o10)
  else none

/-- A word of a fixed bank; banks 0o44 to 0o47 do not exist (R107). -/
def fixedLoc (bank : Option Nat) (off : BitVec 10) : Loc :=
  match bank with
  | some n => if n ≤ 0o43 then .fixed n off else .noRope
  | none => .noRope

/-- `Resolve(a)`, R109. -/
def resolve (s : State) (k : Addr) : Loc :=
  if k.toNat ≤ 0o1777 then eraseLoc (eraseBank s k) (eraseOff k)
  else if k.toNat ≤ 0o3777 then fixedLoc (fixedBank s) (k.extractLsb' 0 10)
  else if k.toNat ≤ 0o5777 then .fixed 2 (k.extractLsb' 0 10)
  else .fixed 3 (k.extractLsb' 0 10)

/-- The 12-bit address of a 10-bit address field: erasable memory (30_encoding.md R151). -/
def ea (k : EAddr) : Addr := k.setWidth 12

/-! ### Reading and writing one word -/

/-- The key of E[bank][off]. -/
def eraseKey (bank : EBank) (off : EOff) : Nat := bank.toNat * 0o400 + off.toNat

/-- The key of Rope[bank][off]. -/
def ropeKey (bank : Nat) (off : BitVec 10) : Nat := bank * 0o2000 + off.toNat

/-- The word of the cell E[bank][off]. -/
def eraseRead (s : State) (bank : EBank) (off : EOff) : Word := s.erasable.read (eraseKey bank off)

/-- The cell E[bank][off] replaced, with no editing. -/
def eraseWrite (s : State) (bank : EBank) (off : EOff) (w : Word) : State :=
  s.setErasable (s.erasable.write (eraseKey bank off) w)

/-- `Edit(cell, w)`, R111: what CYR, SR, CYL and EDOP store for a written word (10_state.md R45 to R48). -/
def edit (bank : EBank) (off : EOff) (w : Word) : Word :=
  if bank = 0#3 then
    match off.toNat with
    | 0o20 => w.extractLsb' 0 1 ++ w.extractLsb' 1 14
    | 0o21 => w.extractLsb' 14 1 ++ w.extractLsb' 1 14
    | 0o22 => w.extractLsb' 0 14 ++ w.extractLsb' 14 1
    | 0o23 => (w.extractLsb' 7 7).setWidth 15
    | _ => w
  else w

/-- EB as a word: EBANK in bits 11 to 9 (10_state.md R25). -/
def ebWord (e : EBank) : Word := e.setWidth 15 <<< 8

/-- FB as a word: FBANK in bits 15 to 11 (10_state.md R26). -/
def fbWord (f : BitVec 5) : Word := f.setWidth 15 <<< 10

/-- BB as a word (10_state.md R27). -/
def bbWord (f : BitVec 5) (e : EBank) : Word := fbWord f ||| e.setWidth 15

/-- `RegRead15(n)`, R110. -/
def regRead15 (s : State) : CpuReg → Word
  | .a => ovc s.a
  | .l => s.l
  | .q => ovc s.q
  | .eb => ebWord s.ebank
  | .fb => fbWord s.fbank
  | .z => zext15 s.z
  | .bb => bbWord s.fbank s.ebank
  | .zero => 0#15

/-- `RegWrite15(n, w)`, R110: each register keeps its own bits; a write to address 7 is discarded. -/
def regWrite15 (s : State) (r : CpuReg) (w : Word) : State :=
  match r with
  | .a => s.setA (sext16 w)
  | .l => s.setL w
  | .q => s.setQ (sext16 w)
  | .eb => s.setEbank (w.extractLsb' 8 3)
  | .fb => s.setFbank (w.extractLsb' 10 5)
  | .z => s.setZ (w.extractLsb' 0 12)
  | .bb => (s.setFbank (w.extractLsb' 10 5)).setEbank (w.extractLsb' 0 3)
  | .zero => s

/-- `MemRead(a, 1)`, R109. -/
def memRead (s : State) (k : Addr) : Word :=
  match resolve s k with
  | .reg r => regRead15 s r
  | .eras bank off => eraseRead s bank off
  | .fixed bank off => s.rope.read (ropeKey bank off)
  | .noRope => Config.noRopeWord

/-- `MemWrite(a, 1, w)`, R111: erasable cells are edited, fixed memory keeps its word. -/
def memWrite (s : State) (k : Addr) (w : Word) : State :=
  match resolve s k with
  | .reg r => regWrite15 s r w
  | .eras bank off => eraseWrite s bank off (edit bank off w)
  | .fixed _ _ => s
  | .noRope => s

/-! ### Channels (20_memory.md R118, 44_io_channel.md R340) -/

/-- The environment observes something (60_exceptions.md R551 (4)). -/
def State.observe (s : State) (o : Observation) : State := s.setObserved (o :: s.observed)

/-- `ChanRead(c)`, R118. -/
def chanRead (s : State) (c : ChanNo) : Acc :=
  if c = 1#9 then sext16 s.l
  else if c = 2#9 then s.q
  else if c = 7#9 then s.sbank.setWidth 16 <<< 4
  else sext16 (s.chan.read c.toNat)

/-- `Chan15(c)`, R340. -/
def chan15 (s : State) (c : ChanNo) : Word := ovc (chanRead s c)

/-- The value a channel takes from a 16-bit value written to it (R118): Q takes all 16 bits, channel 7 only bits 7 to 5,
every other channel the overflow-corrected word. -/
def chanValue (c : ChanNo) (v : Acc) : Acc :=
  if c = 2#9 then v
  else if c = 7#9 then (v.extractLsb' 4 3).setWidth 16 <<< 4
  else sext16 (ovc v)

/-- The channels that can not be inputs: 1, 2 and 7 are registers of the CPU (10_state.md R77, R80), 5, 6, 0o13, 0o14, 0o34
and 0o35 output channels (R58, R61, R79, R81). -/
def neverInput : List ChanNo := [1#9, 2#9, 5#9, 6#9, 7#9, 0o13#9, 0o14#9, 0o34#9, 0o35#9]

/-- The scaler channels, HISCALAR and LOSCALAR (10_state.md R78). -/
def scalerChans : List ChanNo := [3#9, 4#9]

/-- The channels that are inputs by what the spec says of them: the scaler and 0o31, to whose devices 60_exceptions.md R550
gives the direction "in" (10_state.md R58, R78, R81), and 0o32, whose bits cause RUPT10 as those of 0o31 do (R522). That a
program's write leaves them as they are is DEDUCED (log 11). -/
def alwaysInput : List ChanNo := scalerChans ++ [0o31#9, 0o32#9]

/-- A channel is an input. Of the channels of which the spec does not say it, 92_eei_decisions.md D18 leaves it open; the
inputs among them are those that `inputChans` lists (DESIGN CHOICE, log 11). -/
def isInput (s : State) (c : ChanNo) : Bool := decide (c ∈ alwaysInput ∨ c ∈ s.inputChans ∧ c ∉ neverInput)

/-- The storage part of `ChanWrite(c, v)`, R118. A write to an input channel, the scaler channels 3 and 4 among them, does
not change what the environment presents there (92_eei_decisions.md D18; DEDUCED, log 10, 11). -/
def chanStore (s : State) (c : ChanNo) (v : Acc) : State :=
  if c = 1#9 then s.setL (ovc v)
  else if c = 2#9 then s.setQ v
  else if c = 7#9 then s.setSbank (v.extractLsb' 4 3)
  else if isInput s c then s
  else s.setChan (s.chan.write c.toNat (ovc v))

/-- `ChanWrite(c, v)`, R118: store, and the environment observes the write (R120, 60_exceptions.md R551 (4)). -/
def chanWrite (s : State) (c : ChanNo) (v : Acc) : State := (chanStore s c v).observe (.chanWrite c (chanValue c v))

/-! ### The next instruction (40_common_arithmetic.md R200, R206) -/

/-- `FetchWord(a)`, R200: a read with no re-write. -/
def fetchWord (s : State) (k : Addr) : Word := memRead s k

/-- B is loaded with `w` by something other than INDEX, so BLIT is cleared (10_state.md R32), and Z becomes `z`. -/
def loadB (s : State) (w : Word) (z : Addr) : State := ((s.setB w).setZ z).setBlit false

/-- B from the word at `k`, and Z one past it, modulo 0o10000. -/
def jumpTo (s : State) (k : Addr) : State := loadB s (fetchWord s k) (k + 1#12)

/-- `NextInstruction()`, R206. -/
def nextInstruction (s : State) : State := jumpTo s s.z

/-- The end of an instruction that has not assigned B: EXT is cleared (R202), the next word fetched, `n` MCT pass. -/
def done (s : State) (n : Nat) : Result := .next ((nextInstruction (s.setExt false)).tick n)

/-- The end of an instruction that has assigned B: EXT is cleared (R202), `n` MCT pass. -/
def doneB (s : State) (n : Nat) : Result := .next ((s.setExt false).tick n)

/-- Z moves past `n` words. -/
def skip (s : State) (n : Addr) : State := s.setZ (s.z + n)

/-! ### Interrupt requests (60_exceptions.md R521 to R526) -/

/-- The number of an interrupt, R521. -/
def Interrupt.number : Interrupt → Nat
  | .t6rupt => 1
  | .t5rupt => 2
  | .t3rupt => 3
  | .t4rupt => 4
  | .keyrupt1 => 5
  | .keyrupt2 => 6
  | .uprupt => 7
  | .downrupt => 8
  | .radarRupt => 9
  | .rupt10 => 10

/-- The vector of an interrupt, 0o4000 + 4 i (R521). -/
def Interrupt.vector (i : Interrupt) : Addr := BitVec.ofNat 12 (0o4000 + 4 * i.number)

/-- RUPTREQ[i]. -/
def Latches.get (r : Latches) : Interrupt → Bool
  | .t6rupt => r.t6rupt
  | .t5rupt => r.t5rupt
  | .t3rupt => r.t3rupt
  | .t4rupt => r.t4rupt
  | .keyrupt1 => r.keyrupt1
  | .keyrupt2 => r.keyrupt2
  | .uprupt => r.uprupt
  | .downrupt => r.downrupt
  | .radarRupt => r.radarRupt
  | .rupt10 => r.rupt10

/-- RUPTREQ[i] replaced. -/
def Latches.put (r : Latches) (i : Interrupt) (v : Bool) : Latches :=
  match i with
  | .t6rupt => { r with t6rupt := v }
  | .t5rupt => { r with t5rupt := v }
  | .t3rupt => { r with t3rupt := v }
  | .t4rupt => { r with t4rupt := v }
  | .keyrupt1 => { r with keyrupt1 := v }
  | .keyrupt2 => { r with keyrupt2 := v }
  | .uprupt => { r with uprupt := v }
  | .downrupt => { r with downrupt := v }
  | .radarRupt => { r with radarRupt := v }
  | .rupt10 => { r with rupt10 := v }

/-- `RUPTREQ[i] <- 1` (R522). -/
def raise (s : State) (i : Interrupt) : State := s.setRuptReq (s.ruptReq.put i true)

/-- A counter request is made and stays pending (46_unprogrammed_sequences.md R380). -/
def post (s : State) (r : CounterReq) : State := s.setPending (s.pending ++ [r])

/-- What the overflow of the counter at an offset of E0 does (40_common_arithmetic.md R203). -/
def counterOverflow (s : State) (off : EOff) : State :=
  match off.toNat with
  | 0o25 => post s (.pinc .time2)
  | 0o26 => raise s .t3rupt
  | 0o27 => raise s .t4rupt
  | 0o30 => raise s .t5rupt
  | 0o31 => raise s .t6rupt
  | _ => s

/-- `CounterOverflow(K)` for a location, R203. -/
def locOverflow (s : State) (loc : Loc) : State :=
  match loc with
  | .eras bank off => if bank = 0#3 then counterOverflow s off else s
  | .reg _ => s
  | .fixed _ _ => s
  | .noRope => s

/-- `InterruptPossible()`, R523 (a) to (f). -/
def interruptPossible (s : State) : Bool :=
  !s.inh && !s.isr && !s.ext && decide (ovf s.a = .none) && !s.blit
    && !(s.b == 0o00003#15 || s.b == 0o00004#15 || s.b == 0o00006#15)

/-- The interrupts from the lowest vector up: the order of priority (R526, decision D13, log 26). -/
def interruptOrder : List Interrupt :=
  [.t6rupt, .t5rupt, .t3rupt, .t4rupt, .keyrupt1, .keyrupt2, .uprupt, .downrupt, .radarRupt, .rupt10]

/-- The interrupt to take at a step boundary, if any (R523, R526). -/
def interruptToTake (s : State) : Option Interrupt :=
  if interruptPossible s then interruptOrder.find? (fun i => s.ruptReq.get i) else none

/-! ### Entering and leaving a service routine, and GOJ -/

/-- ZRUPT, address 0o15 of E0 (10_state.md R41). -/
def zruptOff : EOff := 0o15#8

/-- BRUPT, address 0o17 of E0 (10_state.md R42). -/
def bruptOff : EOff := 0o17#8

/-- `ZRUPT <- zext_15(Z)` as a plain cell, whatever EBANK is (60_exceptions.md R525). -/
def saveZ (s : State) : State := eraseWrite s 0#3 zruptOff (zext15 s.z)

/-- `BRUPT <- B` as a plain cell (R525). -/
def saveB (s : State) : State := eraseWrite s 0#3 bruptOff s.b

/-- `Vector(i)`, R525: taking an interrupt. It is charged no time (R525, log 17). -/
def vectorTo (s : State) (i : Interrupt) : State :=
  jumpTo (((saveB (saveZ s)).setRuptReq (s.ruptReq.put i false)).setIsr true) i.vector

/-- The three assignments of RESUME (60_exceptions.md R528, 45_special_control.md R364). -/
def returnFromInterrupt (s : State) : State :=
  loadB (s.setIsr false) (eraseRead s 0#3 bruptOff) ((eraseRead s 0#3 zruptOff).extractLsb' 0 12)

/-- The entry that EDRUPT imitates (45_special_control.md R365, 60_exceptions.md R529, decision D15, log 28). -/
def programmedEntry (s : State) : State := jumpTo ((saveZ s).setIsr true) 0#12

/-- `GOJ()`, 70_reset_and_hazards.md R570. -/
def goj (s : State) : State := (jumpTo ((s.setIsr false).setExt false) 0o4000#12).tick 2

/-! ### Free values -/

/-- One free value has been drawn (log 7). -/
def State.draw (s : State) : State := s.setFreeCount (s.freeCount + 1)

end Sys2Proof.Machine
end

