-- ==== Sys2Proof/Machine/Operands.lean ====
section
/-! DEFINITION. The operand forms: 16-bit reads and writes of a memory operand, the re-write after a read, and the two
addresses of a double-precision pair (40_common_arithmetic.md R197, R198, 20_memory.md R112, R114). -/

namespace Sys2Proof.Machine

/-- `Is16(K)`, R197: the address resolves to A or Q, in the E0 window too (decision D9, log 23). -/
def is16 (s : State) (k : Addr) : Bool :=
  match resolve s k with
  | .reg .a => true
  | .reg .q => true
  | _ => false

/-- `RdOp(K)`, R197. -/
def rdOp (s : State) (k : Addr) : Acc :=
  match resolve s k with
  | .reg .a => s.a
  | .reg .q => s.q
  | _ => sext16 (memRead s k)

/-- `WrOp(K, v)`, R198. -/
def wrOp (s : State) (k : Addr) (v : Acc) : State :=
  match resolve s k with
  | .reg .a => s.setA v
  | .reg .q => s.setQ v
  | _ => memWrite s k (ovc v)

/-- `ReWrite(K)`, R198: the re-write after a read, which an editing register edits once more (20_memory.md R112). -/
def reWrite (s : State) (k : Addr) : State := if is16 s k then s else memWrite s k (memRead s k)

/-- The address K = F - 1 of the more significant word of a pair whose field is F (20_memory.md R114). -/
def pairHigh (f : Addr) : Addr := f - 1#12

/-- The address K + 1 = F of the less significant word (R114). -/
def pairLow (f : Addr) : Addr := f

end Sys2Proof.Machine
end

