-- ==== Sys2Proof/Machine/Arith.lean ====
section
/-! DEFINITION. The arithmetic and logic instructions (43_arithmetic_logic.md R300 to R315). -/

namespace Sys2Proof.Machine

/-- AD, R300: A is not overflow-corrected before the addition. -/
def add (k : Addr) (s : State) : Result := done (reWrite (s.setA (add1c16 s.a (rdOp s k))) k) 2

/-- AD K, R300. -/
def execAd (k : Addr) (s : State) : Result := add k s

/-- DOUBLE, R301: AD A. -/
def execDouble (s : State) : Result := add 0#12 s

/-- ADS K, R302. -/
def execAds (k : EAddr) (s : State) : Result :=
  let sum := add1c16 s.a (rdOp s (ea k))
  done (wrOp (s.setA sum) (ea k) sum) 2

/-- SU K, R303. -/
def execSu (k : EAddr) (s : State) : Result :=
  done (reWrite (s.setA (sub1c16 s.a (rdOp s (ea k)))) (ea k)) 2

/-- The 16-bit modular difference of R304: a negative two's-complement difference becomes one's complement. -/
def modDiff16 (x y : Acc) : Acc :=
  let d := x - y
  if d.getLsbD 15 then d - 1#16 else d

/-- The 15-bit modular difference of R304 (decision D24, log 32). -/
def modDiff15 (x y : Word) : Word :=
  let d := x - y
  if d.getLsbD 14 then d - 1#15 else d

/-- MSU K, R304. -/
def execMsu (k : EAddr) (s : State) : Result :=
  let r := if is16 s (ea k) then modDiff16 s.a (rdOp s (ea k))
    else sext16 (modDiff15 (ovc s.a) (memRead s (ea k)))
  done (reWrite (s.setA r) (ea k)) 2

/-- The low sum of a double-precision addition: L and the operand K + 1 (R305). -/
def dasLow (s : State) (f : Addr) : Acc := add1c16 (sext16 s.l) (rdOp s (pairLow f))

/-- The high sum: A, the operand K and the carry of the low sum (R305). -/
def dasHigh (s : State) (f : Addr) : Acc :=
  add1c16 (add1c16 s.a (rdOp s (pairHigh f))) (carry (dasLow s f))

/-- DAS, R305; with K = 0 it is DDOUBL, R306 (log 14). -/
def doubleAddToStorage (f : Addr) (s : State) : Result :=
  let lo := dasLow s f
  let hi := dasHigh s f
  if f = 0#12 then .refused (.dpFieldZero "DAS")
  else if f = 1#12 then done ((s.setL (ovc lo)).setA hi) 3
  else done (((wrOp (wrOp s (pairLow f) lo) (pairHigh f) hi).setL 0#15).setA (carry hi)) 3

/-- DAS K, R305. -/
def execDas (f : EAddr) (s : State) : Result := doubleAddToStorage (ea f) s

/-- DDOUBL, R306: DAS A. -/
def execDdoubl (s : State) : Result := doubleAddToStorage 1#12 s

/-- The store of INCR and AUG, with the side effect of a counter's overflow of either sign (R307, R308,
40_common_arithmetic.md R203, decision D23, log 30). -/
def storeCount (k : Addr) (sum : Acc) (s : State) : State :=
  if is16 s k = false ∧ ovf sum ≠ .none then locOverflow (wrOp s k sum) (resolve s k) else wrOp s k sum

/-- INCR K, R307. -/
def execIncr (k : EAddr) (s : State) : Result :=
  done (storeCount (ea k) (add1c16 (rdOp s (ea k)) plusOne) s) 2

/-- The augmented value of R308: one step away from zero. -/
def augmented (v : Acc) : Acc := if v.getLsbD 15 then add1c16 v minusOne else add1c16 v plusOne

/-- AUG K, R308. -/
def execAug (k : EAddr) (s : State) : Result := done (storeCount (ea k) (augmented (rdOp s (ea k))) s) 2

/-- The diminished value of R310: one step toward zero, and zero stays. -/
def diminished (v : Acc) : Acc :=
  if isZero16 v then v
  else if v.getLsbD 15 then add1c16 v plusOne
  else add1c16 v minusOne

/-- DIM K, R310: no counter side effect. -/
def execDim (k : EAddr) (s : State) : Result := done (wrOp s (ea k) (diminished (rdOp s (ea k)))) 2

/-- A and L after a multiplication, R311. -/
def product (x y : Word) : Acc × Word :=
  let p := val x * val y
  if p ≠ 0 then
    (sext16 (signedWord (decide (p < 0)) (p.natAbs / 2 ^ 14)), signedWord (decide (p < 0)) (p.natAbs % 2 ^ 14))
  else if (x = 0o00000#15 ∧ val y < 0) ∨ (x = 0o77777#15 ∧ 0 < val y) then (0o177777#16, 0o77777#15)
  else (0o000000#16, 0o00000#15)

/-- MP, R311; MP A with overflow in A leaves free values in A and L (R312, 93_implementation_defined.md U8, log 6). -/
def multiply (k : Addr) (s : State) : Result :=
  if k = 0#12 ∧ ovf s.a ≠ .none then
    let r := Config.squareMessy s.freeCount s.a
    done (((s.setA r.1).setL r.2).draw) 3
  else
    let r := product (ovc s.a) (ovc (rdOp s k))
    done ((s.setA r.1).setL r.2) 3

/-- MP K, R311. -/
def execMp (k : Addr) (s : State) : Result := multiply k s

/-- SQUARE, R312: MP A. -/
def execSquare (s : State) : Result := multiply 0#12 s

/-- A and L after a division, R313; none where the divisor is too small. -/
def quotient (a l k : Word) : Option (Acc × Word) :=
  let dividend := val2 a l
  let divisor := val k
  let sD := if isZero15 a then l.getLsbD 14 else a.getLsbD 14
  let sq := sD.xor (k.getLsbD 14)
  if dividend = 0 ∧ divisor ≠ 0 then some (sext16 (signedWord sq 0), l)
  else if dividend = 0 ∧ divisor = 0 then some (sext16 (signedWord sq 0o37777), l)
  else if dividend.natAbs = 2 ^ 14 * divisor.natAbs then some (sext16 (signedWord sq 0o37777), a)
  else if dividend.natAbs < 2 ^ 14 * divisor.natAbs then
    some (sext16 (signedWord sq (dividend.natAbs / divisor.natAbs)), signedWord sD (dividend.natAbs % divisor.natAbs))
  else none

/-- DV K, R313; with a divisor that is too small A and L take free values (decision D11, U2, log 5). -/
def execDv (k : EAddr) (s : State) : Result :=
  let a := ovc s.a
  let d := ovc (rdOp s (ea k))
  match quotient a s.l d with
  | some r => done ((s.setA r.1).setL r.2) 6
  | none =>
    let r := Config.dvNonsense s.freeCount a s.l d
    done (((s.setA r.1).setL r.2).draw) 6

/-- MASK, R315: 16 bits with A or Q, otherwise 15 bits. -/
def mask (k : Addr) (s : State) : Result :=
  let r := if is16 s k then s.a &&& rdOp s k else sext16 (ovc s.a &&& memRead s k)
  done (s.setA r) 2

/-- MASK K, R315. -/
def execMask (k : Addr) (s : State) : Result := mask k s

/-- MSK K, another name for MASK K (R315). -/
def execMsk (k : Addr) (s : State) : Result := mask k s

end Sys2Proof.Machine
end

