-- ==== Sys2Proof/Machine/Channel.lean ====
section
/-! DEFINITION. The channel instructions (44_io_channel.md R340 to R347). -/

namespace Sys2Proof.Machine

/-- The combination of A with a channel by a bitwise operation (R343 to R347): all 16 bits with channel 2, otherwise the
overflow-corrected A and the channel's word, sign-extended. -/
def combine (g16 : Acc → Acc → Acc) (g15 : Word → Word → Word) (c : ChanNo) (s : State) : Acc :=
  if c = 2#9 then g16 s.a s.q else sext16 (g15 (ovc s.a) (chan15 s c))

/-- The combination goes to A only (R343, R345, R347). -/
def combineRead (g16 : Acc → Acc → Acc) (g15 : Word → Word → Word) (c : ChanNo) (s : State) : Result :=
  done (s.setA (combine g16 g15 c s)) 2

/-- The combination goes to the channel and to A (R344, R346). -/
def combineWrite (g16 : Acc → Acc → Acc) (g15 : Word → Word → Word) (c : ChanNo) (s : State) : Result :=
  done ((chanWrite s c (combine g16 g15 c s)).setA (combine g16 g15 c s)) 2

/-- READ KC, R341. -/
def execRead (c : ChanNo) (s : State) : Result := done (s.setA (chanRead s c)) 2

/-- WRITE KC, R342. -/
def execWrite (c : ChanNo) (s : State) : Result := done (chanWrite s c s.a) 2

/-- RAND KC, R343. -/
def execRand (c : ChanNo) (s : State) : Result := combineRead (· &&& ·) (· &&& ·) c s

/-- WAND KC, R344. -/
def execWand (c : ChanNo) (s : State) : Result := combineWrite (· &&& ·) (· &&& ·) c s

/-- ROR KC, R345. -/
def execRor (c : ChanNo) (s : State) : Result := combineRead (· ||| ·) (· ||| ·) c s

/-- WOR KC, R346. -/
def execWor (c : ChanNo) (s : State) : Result := combineWrite (· ||| ·) (· ||| ·) c s

/-- RXOR KC, R347. -/
def execRxor (c : ChanNo) (s : State) : Result := combineRead (· ^^^ ·) (· ^^^ ·) c s

end Sys2Proof.Machine
end

