-- ==== Sys2Proof/Machine/Control.lean ====
section
/-! DEFINITION. The special control instructions (45_special_control.md R360 to R366). -/

namespace Sys2Proof.Machine

/-- EXTEND, R360: EXT is set, and is not cleared at the end (40_common_arithmetic.md R202). -/
def execExtend (s : State) : Result := .next ((nextInstruction (s.setExt true)).tick 1)

/-- INHINT, R361. -/
def execInhint (s : State) : Result := done (s.setInh true) 1

/-- RELINT, R362. -/
def execRelint (s : State) : Result := done (s.setInh false) 1

/-- The word INDEX forms from an index value and the following word, R363 (decision D7 (a), log 22). -/
def indexedWord (idx w2 : Word) : Word := ovc (add1c16 (sext16 w2) (sext16 idx))

/-- INDEX, R363: the following word is fetched after the re-write, the sum stands in B with BLIT = 1, EXT stays. -/
def indexNext (k : Addr) (s : State) : Result :=
  let t := reWrite s k
  let w := indexedWord (ovc (rdOp s k)) (fetchWord t t.z)
  .next ((((t.setB w).setZ (t.z + 1#12)).setBlit true).tick 2)

/-- INDEX K, basic: a 10-bit address (R363). -/
def execIndex (k : EAddr) (s : State) : Result := indexNext (ea k) s

/-- INDEX K, extracode: a 12-bit address, never RESUME (R363). -/
def execIndexExt (k : Addr) (s : State) : Result := indexNext k s

/-- NDX K, basic: another name for INDEX K (R363). -/
def execNdx (k : EAddr) (s : State) : Result := indexNext (ea k) s

/-- NDX K, extracode: another name for INDEX K (R363). -/
def execNdxExt (k : Addr) (s : State) : Result := indexNext k s

/-- RESUME, R364. -/
def execResume (s : State) : Result := doneB (returnFromInterrupt s) 2

/-- EDRUPT KC, R365: the operand is ignored. -/
def execEdrupt (_ : ChanNo) (s : State) : Result := doneB (programmedEntry s) 3

end Sys2Proof.Machine
end

