-- ==== Sys2Proof/Machine/LoadStore.lean ====
section
/-! DEFINITION. The load, store and exchange instructions (42_load_store_exchange.md R260 to R280). -/

namespace Sys2Proof.Machine

/-- CA, R260. -/
def clearAndAdd (k : Addr) (s : State) : Result := done (reWrite (s.setA (rdOp s k)) k) 2

/-- CS, R261. -/
def clearAndSubtract (k : Addr) (s : State) : Result := done (reWrite (s.setA (~~~(rdOp s k))) k) 2

/-- CA K, R260. -/
def execCa (k : Addr) (s : State) : Result := clearAndAdd k s

/-- CAE K, R260: CA of an erasable address. -/
def execCae (k : Addr) (s : State) : Result := clearAndAdd k s

/-- CAF K, R260: CA of a fixed address. -/
def execCaf (k : Addr) (s : State) : Result := clearAndAdd k s

/-- NOOP as it assembles in erasable memory: CA A (41_control_transfer.md R235). In fixed memory it is a TCF. -/
def execNoop (s : State) : Result := clearAndAdd 0#12 s

/-- CS K, R261. -/
def execCs (k : Addr) (s : State) : Result := clearAndSubtract k s

/-- COM, R262: CS A. -/
def execCom (s : State) : Result := clearAndSubtract 0#12 s

/-- The low half of a double load: `L <- ovc(v)` for the operand's value changed by `g`, and the re-write (R263, R264). -/
def loadLow (g : Acc → Acc) (k : Addr) (s : State) : State := reWrite (s.setL (ovc (g (rdOp s k)))) k

/-- The high half of a double load. -/
def loadHigh (g : Acc → Acc) (k : Addr) (s : State) : State := reWrite (s.setA (g (rdOp s k))) k

/-- DCA, R263: the low word first. The pair (L, Q), K = 1, is given by its own clause (decision D22, log 14, 24). -/
def doubleClearAndAdd (f : Addr) (s : State) : Result :=
  if f = 0#12 then .refused (.dpFieldZero "DCA")
  else if f = 2#12 then done ((s.setA s.q).setL (ovc s.q)) 3
  else done (loadHigh (fun v => v) (pairHigh f) (loadLow (fun v => v) (pairLow f) s)) 3

/-- DCS, R264: as DCA with both words complemented. For the pair (L, Q), K = 1, A takes all 16 bits of Q complemented, as
decision D22 and the vector V42-35 have it, where the pseudocode and the quotation of R264 have Q itself (log 24). -/
def doubleClearAndSubtract (f : Addr) (s : State) : Result :=
  if f = 0#12 then .refused (.dpFieldZero "DCS")
  else if f = 2#12 then done ((s.setA (~~~s.q)).setL (ovc (~~~s.q))) 3
  else done (loadHigh (fun v => ~~~v) (pairHigh f) (loadLow (fun v => ~~~v) (pairLow f) s)) 3

/-- DCA K, R263. -/
def execDca (f : Addr) (s : State) : Result := doubleClearAndAdd f s

/-- DCS K, R264. -/
def execDcs (f : Addr) (s : State) : Result := doubleClearAndSubtract f s

/-- DCOM, R265: DCS A. -/
def execDcom (s : State) : Result := doubleClearAndSubtract 1#12 s

/-- What TS does to A and Z before its store: with overflow A becomes +1 or -1 and one word is skipped (R266). -/
def tsOverflow (s : State) : State :=
  match ovf s.a with
  | .none => s
  | .pos => skip (s.setA plusOne) 1#12
  | .neg => skip (s.setA minusOne) 1#12

/-- TS, R266: A and Z first, the store of the old A last (decision D21, log 31). -/
def transferToStorage (k : Addr) (s : State) : Result := done (wrOp (tsOverflow s) k s.a) 2

/-- TS K, R266. -/
def execTs (k : EAddr) (s : State) : Result := transferToStorage (ea k) s

/-- OVSK, R267: TS A. -/
def execOvsk (s : State) : Result := transferToStorage 0#12 s

/-- TCAA, R268: TS Z. -/
def execTcaa (s : State) : Result := transferToStorage 5#12 s

/-- XCH K, R269. -/
def execXch (k : EAddr) (s : State) : Result := done ((wrOp s (ea k) s.a).setA (rdOp s (ea k))) 2

/-- LXCH, R270: L has 15 bits. -/
def exchangeL (k : Addr) (s : State) : State := (wrOp s k (sext16 s.l)).setL (ovc (rdOp s k))

/-- LXCH K, R270. -/
def execLxch (k : EAddr) (s : State) : Result := done (exchangeL (ea k) s) 2

/-- ZL, R271: LXCH 7. -/
def execZl (s : State) : Result := done (exchangeL 7#12 s) 2

/-- QXCH, R272. -/
def exchangeQ (k : Addr) (s : State) : State := (wrOp s k s.q).setQ (rdOp s k)

/-- QXCH K, R272. -/
def execQxch (k : EAddr) (s : State) : Result := done (exchangeQ (ea k) s) 2

/-- ZQ, R273: QXCH 7. -/
def execZq (s : State) : Result := done (exchangeQ 7#12 s) 2

/-- The exchange of A with an operand, the high half of DXCH (R274). -/
def exchangeA (k : Addr) (s : State) : State := (wrOp s k s.a).setA (rdOp s k)

/-- DXCH, R274: the low word first. The pair (L, Q), K = 1, is given by its own clause (log 14, 24). -/
def doubleExchange (f : Addr) (s : State) : Result :=
  if f = 0#12 then .refused (.dpFieldZero "DXCH")
  else if f = 2#12 then done (((s.setA s.q).setL (ovc s.a)).setQ (sext16 s.l)) 3
  else done (exchangeA (pairHigh f) (exchangeL (pairLow f) s)) 3

/-- DXCH K, R274. -/
def execDxch (f : EAddr) (s : State) : Result := doubleExchange (ea f) s

/-- DTCF, R279: DXCH of FB and Z. -/
def execDtcf (s : State) : Result := doubleExchange 5#12 s

/-- DTCB, R280: DXCH of Z and BB. -/
def execDtcb (s : State) : Result := doubleExchange 6#12 s

end Sys2Proof.Machine
end

