-- ==== Sys2Proof/Machine/Transfer.lean ====
section
/-! DEFINITION. The control transfer instructions (41_control_transfer.md R230 to R238). -/

namespace Sys2Proof.Machine

/-- TC, R230: the target is read before Q is written; `n` MCT. -/
def transferControl (k : Addr) (s : State) (n : Nat) : Result :=
  doneB (loadB (s.setQ (zext16 s.z)) (fetchWord s k) (k + 1#12)) n

/-- A transfer that sets no return address: TCF and the taken branches, 1 MCT (R234, R236, R237). -/
def transferNoReturn (k : Addr) (s : State) : Result := doneB (jumpTo s k) 1

/-- TC K, R230. -/
def execTc (k : Addr) (s : State) : Result := transferControl k s 1

/-- TCR K, another name for TC K (R230). -/
def execTcr (k : Addr) (s : State) : Result := transferControl k s 1

/-- XXALQ, R231: TC A. -/
def execXxalq (s : State) : Result := transferControl 0#12 s 1

/-- XLQ, R232: TC L. -/
def execXlq (s : State) : Result := transferControl 1#12 s 1

/-- RETURN, R233: TC Q. Of the 2 MCT of its row, one belongs to the TC found in Q, which the next step executes
(70_reset_and_hazards.md R585; log 17). -/
def execReturn (s : State) : Result := transferControl 2#12 s 1

/-- TCF K, R234. -/
def execTcf (k : Addr) (s : State) : Result := transferNoReturn k s

/-- BZF K, R236: all 16 bits of A are looked at, so overflow is not zero. -/
def execBzf (k : Addr) (s : State) : Result := if isZero16 s.a then transferNoReturn k s else done s 2

/-- BZMF K, R237: +0, or bit 16 of A is 1. -/
def execBzmf (k : Addr) (s : State) : Result :=
  if s.a = 0o000000#16 ∨ s.a.getLsbD 15 = true then transferNoReturn k s else done s 2

/-- The diminished absolute value of a 16-bit value, R238. -/
def dabs (v : Acc) : Acc :=
  let m := if v.getLsbD 15 then ~~~v else v
  if 2 ≤ m.toNat then m - 1#16 else 0#16

/-- How many words CCS skips, R238. -/
def ccsSkip (v : Acc) : Addr :=
  match ovf v with
  | .pos => 0#12
  | .neg => 2#12
  | .none =>
    if v = 0o000000#16 then 1#12
    else if v = 0o177777#16 then 3#12
    else if v.getLsbD 15 then 2#12
    else 0#12

/-- CCS K, R238: the jump is decided by the unedited contents of K. -/
def execCcs (k : EAddr) (s : State) : Result :=
  let v := rdOp s (ea k)
  done (skip ((reWrite s (ea k)).setA (dabs v)) (ccsSkip v)) 2

end Sys2Proof.Machine
end

