-- ==== Sys2Proof/Machine/Dispatch.lean ====
section
/-! DEFINITION. The dispatch: one meaning per row of the opcode table. -/

namespace Sys2Proof.Machine

def exec (i : Instr) (s : State) : Host.Outcome State Fault Refusal :=
  match i with
  | .tc k => Sys2Proof.Machine.execTc k s
  | .ccs k => Sys2Proof.Machine.execCcs k s
  | .tcf k => Sys2Proof.Machine.execTcf k s
  | .das f => Sys2Proof.Machine.execDas f s
  | .lxch k => Sys2Proof.Machine.execLxch k s
  | .incr k => Sys2Proof.Machine.execIncr k s
  | .ads k => Sys2Proof.Machine.execAds k s
  | .ca k => Sys2Proof.Machine.execCa k s
  | .cs k => Sys2Proof.Machine.execCs k s
  | .index k => Sys2Proof.Machine.execIndex k s
  | .dxch f => Sys2Proof.Machine.execDxch f s
  | .ts k => Sys2Proof.Machine.execTs k s
  | .xch k => Sys2Proof.Machine.execXch k s
  | .ad k => Sys2Proof.Machine.execAd k s
  | .mask k => Sys2Proof.Machine.execMask k s
  | .read c => Sys2Proof.Machine.execRead c s
  | .write c => Sys2Proof.Machine.execWrite c s
  | .rand c => Sys2Proof.Machine.execRand c s
  | .wand c => Sys2Proof.Machine.execWand c s
  | .ror c => Sys2Proof.Machine.execRor c s
  | .wor c => Sys2Proof.Machine.execWor c s
  | .rxor c => Sys2Proof.Machine.execRxor c s
  | .edrupt c => Sys2Proof.Machine.execEdrupt c s
  | .dv k => Sys2Proof.Machine.execDv k s
  | .bzf k => Sys2Proof.Machine.execBzf k s
  | .msu k => Sys2Proof.Machine.execMsu k s
  | .qxch k => Sys2Proof.Machine.execQxch k s
  | .aug k => Sys2Proof.Machine.execAug k s
  | .dim k => Sys2Proof.Machine.execDim k s
  | .dca f => Sys2Proof.Machine.execDca f s
  | .dcs f => Sys2Proof.Machine.execDcs f s
  | .indexExt k => Sys2Proof.Machine.execIndexExt k s
  | .su k => Sys2Proof.Machine.execSu k s
  | .bzmf k => Sys2Proof.Machine.execBzmf k s
  | .mp k => Sys2Proof.Machine.execMp k s
  | .relint => Sys2Proof.Machine.execRelint s
  | .inhint => Sys2Proof.Machine.execInhint s
  | .extend => Sys2Proof.Machine.execExtend s
  | .resume => Sys2Proof.Machine.execResume s
  | .xxalq => Sys2Proof.Machine.execXxalq s
  | .xlq => Sys2Proof.Machine.execXlq s
  | .returnQ => Sys2Proof.Machine.execReturn s
  | .noop => Sys2Proof.Machine.execNoop s
  | .ddoubl => Sys2Proof.Machine.execDdoubl s
  | .zl => Sys2Proof.Machine.execZl s
  | .com => Sys2Proof.Machine.execCom s
  | .dtcf => Sys2Proof.Machine.execDtcf s
  | .dtcb => Sys2Proof.Machine.execDtcb s
  | .ovsk => Sys2Proof.Machine.execOvsk s
  | .tcaa => Sys2Proof.Machine.execTcaa s
  | .double => Sys2Proof.Machine.execDouble s
  | .zq => Sys2Proof.Machine.execZq s
  | .dcom => Sys2Proof.Machine.execDcom s
  | .square => Sys2Proof.Machine.execSquare s
  | .tcr k => Sys2Proof.Machine.execTcr k s
  | .cae k => Sys2Proof.Machine.execCae k s
  | .caf k => Sys2Proof.Machine.execCaf k s
  | .ndx k => Sys2Proof.Machine.execNdx k s
  | .msk k => Sys2Proof.Machine.execMsk k s
  | .ndxExt k => Sys2Proof.Machine.execNdxExt k s

end Sys2Proof.Machine
end

