-- ==== Sys2Proof/Machine/Sequences.lean ====
section
/-! DEFINITION. The unprogrammed sequences (46_unprogrammed_sequences.md R380 to R391): one change of one counter, at the
physical cell E[0][a], whatever EBANK is. -/

namespace Sys2Proof.Machine

/-- The offsets in E0 of the counters PINC serves (10_state.md R50 to R53, R57, R58). -/
def PincCounter.off : PincCounter → EOff
  | .time2 => 0o24#8
  | .time1 => 0o25#8
  | .time3 => 0o26#8
  | .time4 => 0o27#8
  | .time5 => 0o30#8
  | .pipax => 0o37#8
  | .pipay => 0o40#8
  | .pipaz => 0o41#8
  | .rhcp => 0o42#8
  | .rhcy => 0o43#8
  | .rhcr => 0o44#8

/-- The offsets of the counters MINC serves (10_state.md R57, R58). -/
def MincCounter.off : MincCounter → EOff
  | .pipax => 0o37#8
  | .pipay => 0o40#8
  | .pipaz => 0o41#8
  | .rhcp => 0o42#8
  | .rhcy => 0o43#8
  | .rhcr => 0o44#8

/-- The offsets of the angle counters (10_state.md R55, R56). -/
def CduCounter.off : CduCounter → EOff
  | .cdux => 0o32#8
  | .cduy => 0o33#8
  | .cduz => 0o34#8
  | .opty => 0o35#8
  | .optx => 0o36#8

/-- The offsets of the shifted counters (10_state.md R59, R60, R65). -/
def ShiftCounter.off : ShiftCounter → EOff
  | .inlink => 0o45#8
  | .rnrad => 0o46#8
  | .outlink => 0o57#8

/-- `RuptOf(a)`, R386. -/
def ShiftCounter.rupt : ShiftCounter → Interrupt
  | .inlink => .uprupt
  | .rnrad => .radarRupt
  | .outlink => .downrupt

/-- The offset of TIME6 (10_state.md R54). -/
def time6Off : EOff := 0o31#8

/-- The word of a counter. -/
def counter (s : State) (off : EOff) : Word := eraseRead s 0#3 off

/-- A counter replaced, with no editing (R380). -/
def setCounter (s : State) (off : EOff) (w : Word) : State := eraseWrite s 0#3 off w

/-- What a positive overflow of a PINC does: TIME1 asks for a PINC of TIME2, TIME3 to TIME5 raise their interrupts
(R381); an overflow of TIME2 does nothing (R382, decision D16, log 29). -/
def pincOverflow (s : State) (c : PincCounter) : State :=
  match c with
  | .time1 => post s (.pinc .time2)
  | .time3 => raise s .t3rupt
  | .time4 => raise s .t4rupt
  | .time5 => raise s .t5rupt
  | .time2 => s
  | .pipax => s
  | .pipay => s
  | .pipaz => s
  | .rhcp => s
  | .rhcy => s
  | .rhcr => s

/-- PINC, R381. -/
def pinc (s : State) (c : PincCounter) : State :=
  let sum := add1c16 (sext16 (counter s c.off)) plusOne
  let t := setCounter s c.off (ovc sum)
  if ovf sum = .pos then pincOverflow t c else t

/-- MINC, R384. -/
def minc (s : State) (c : MincCounter) : State :=
  setCounter s c.off (ovc (add1c16 (sext16 (counter s c.off)) minusOne))

/-- PCDU, R383. -/
def pcdu (s : State) (c : CduCounter) : State := setCounter s c.off (counter s c.off + 1#15)

/-- MCDU, R388. -/
def mcdu (s : State) (c : CduCounter) : State := setCounter s c.off (counter s c.off - 1#15)

/-- Bit 15 of channel 0o13, the enable of TIME6 counting (10_state.md R54). -/
def time6Enabled (s : State) : Bool := (s.chan.read 0o13).getLsbD 14

/-- Bit 15 of channel 0o13 cleared (R385). -/
def disableTime6 (s : State) : State := s.setChan (s.chan.write 0o13 (s.chan.read 0o13 &&& 0o37777#15))

/-- DINC of TIME6, R385 (90_conflicts.md C15: the request is raised by the DINC that finds the counter at zero). -/
def dinc (s : State) : State :=
  let c := counter s time6Off
  if isZero15 c then raise (disableTime6 (s.observe .zout)) .t6rupt
  else if c.getLsbD 14 then (setCounter s time6Off (add1c15 c 0o00001#15)).observe .mout
  else (setCounter s time6Off (add1c15 c 0o77776#15)).observe .pout

/-- A shift of a counter by one place with `bit` coming in, and its interrupt when a 1 leaves bit 15 (R386, R387,
decision D26, log 33). -/
def shiftCounter (s : State) (c : ShiftCounter) (bit : BitVec 1) : State :=
  let w := counter s c.off
  let t := setCounter s c.off (w.extractLsb' 0 14 ++ bit)
  if w.getLsbD 14 then raise t c.rupt else t

/-- SHINC, R386. -/
def shinc (s : State) (c : ShiftCounter) : State := shiftCounter s c 0#1

/-- SHANC, R387. -/
def shanc (s : State) (c : ShiftCounter) : State := shiftCounter s c 1#1

/-- `DoSequence`, R380: the request's sequence, which takes 1 MCT (R392). -/
def doSequence (s : State) (r : CounterReq) : State :=
  State.tick (match r with
    | .pinc c => pinc s c
    | .minc c => minc s c
    | .pcdu c => pcdu s c
    | .mcdu c => mcdu s c
    | .dinc => dinc s
    | .shinc c => shinc s c
    | .shanc c => shanc s c) 1

end Sys2Proof.Machine
end

