-- ==== Sys2Proof/Machine/Cycle.lean ====
section
/-! DEFINITION. The cycle (40_common_arithmetic.md R205, R206): what the environment does at a step boundary, then one of
GOJ, a counter sequence, an interrupt or an instruction. -/

namespace Sys2Proof.Machine

/-! ### The acts of the environment (60_exceptions.md R551) -/

/-- Bits `lo + len` to `lo + 1` of a channel's word are not all 0. -/
def chanAny (s : State) (c : Nat) (lo len : Nat) : Bool := (s.chan.read c).extractLsb' lo len != 0

/-- `Trap31A`, R522. -/
def trap31A (s : State) : Bool := !(s.chan.read 0o13).getLsbD 11 && chanAny s 0o31 0 6

/-- `Trap31B`, R522. -/
def trap31B (s : State) : Bool := !(s.chan.read 0o13).getLsbD 12 && chanAny s 0o31 6 6

/-- `Trap32`, R522. -/
def trap32 (s : State) : Bool := !(s.chan.read 0o13).getLsbD 13 && chanAny s 0o32 0 10

/-- RUPT10 may be requested: one of the three trap conditions holds (R522, decision D28, log 9). -/
def handRuptAllowed (s : State) : Bool := trap31A s || trap31B s || trap32 s

/-- The hand controller's counts are enabled and requested: bits 8 and 9 of channel 0o13 are 1 (10_state.md R58,
44_io_channel.md R348). -/
def handCountsEnabled (s : State) : Bool := (s.chan.read 0o13).getLsbD 7 && (s.chan.read 0o13).getLsbD 8

/-- The counter is one of the hand controller's (10_state.md R58). -/
def PincCounter.isHand (c : PincCounter) : Bool := c == .rhcp || c == .rhcy || c == .rhcr

/-- The counter is one of the hand controller's (10_state.md R58). -/
def MincCounter.isHand (c : MincCounter) : Bool := c == .rhcp || c == .rhcy || c == .rhcr

/-- A request of DINC is made only while bit 15 of channel 0o13 is 1 (46_unprogrammed_sequences.md R385), one for a counter
of the hand controller only while its counts are enabled and requested (10_state.md R58, log 41), the others at any
boundary. -/
def requestAllowed (s : State) (r : CounterReq) : Bool :=
  match r with
  | .dinc => time6Enabled s
  | .pinc c => !c.isHand || handCountsEnabled s
  | .minc c => !c.isHand || handCountsEnabled s
  | .pcdu _ => true
  | .mcdu _ => true
  | .shinc _ => true
  | .shanc _ => true

/-- The offset of a command counter (10_state.md R61, R62). -/
def CommandCounter.off : CommandCounter → EOff
  | .gyroctr => 0o47#8
  | .cduxcmd => 0o50#8
  | .cduycmd => 0o51#8
  | .cduzcmd => 0o52#8

/-- The drive of a command counter is enabled in channel 0o14 (10_state.md R61, R62). -/
def driveEnabled (s : State) : CommandCounter → Bool
  | .gyroctr => (s.chan.read 0o14).getLsbD 9
  | .cduxcmd => (s.chan.read 0o14).getLsbD 14
  | .cduycmd => (s.chan.read 0o14).getLsbD 13
  | .cduzcmd => (s.chan.read 0o14).getLsbD 12

/-- LOSCALAR, channel 4, advances by one as a one's-complement counter; on overflow HISCALAR, channel 3, does
(10_state.md R78, 90_conflicts.md C16, log 10). -/
def advanceScaler (s : State) : State :=
  let lo := add1c16 (sext16 (s.chan.read 4)) plusOne
  let t := s.setChan (s.chan.write 4 (ovc lo))
  if ovf lo = .pos then t.setChan (t.chan.write 3 (ovc (add1c16 (sext16 (t.chan.read 3)) plusOne))) else t

/-- The environment changes what an input channel returns (R551 (3), 92_eei_decisions.md D19 (4)). Which channels are
inputs is `isInput`'s choice (log 11); the scaler channels change by `advanceScaler` only, being counters (10_state.md R78,
log 10). -/
def presentChannel (s : State) (c : ChanNo) (v : Word) : State :=
  if isInput s c ∧ c ∉ scalerChans then s.setChan (s.chan.write c.toNat v) else s

/-- One act of the environment (R551, log 9). -/
def applyEvent (s : State) (e : EnvEvent) : State :=
  match e with
  | .count r => if requestAllowed s r then post s r else s
  | .keyRupt1 => raise s .keyrupt1
  | .keyRupt2 => raise s .keyrupt2
  | .downRupt => raise s .downrupt
  | .radarRupt => raise s .radarRupt
  | .handRupt => if handRuptAllowed s then raise s .rupt10 else s
  | .channel c v => presentChannel s c v
  | .scaler => advanceScaler s
  | .drain c => if driveEnabled s c then setCounter s c.off 0#15 else s

/-- A boundary at which the environment does nothing. -/
def Boundary.quiet : Boundary := { goj := false, events := [], serve := 0 }

/-- What the environment does at the coming boundary. -/
def nextBoundary (s : State) : Boundary := s.env.head?.getD Boundary.quiet

/-- The state at the boundary, after the acts of the environment. -/
def atBoundary (s : State) : State := (nextBoundary s).events.foldl applyEvent (s.setEnv s.env.tail)

/-! ### One step -/

/-- The pending request the environment chooses, and the others in their order (46_unprogrammed_sequences.md R380,
decision D20, log 16). -/
def chooseRequest (pending : List CounterReq) (serve : Nat) : Option (CounterReq × List CounterReq) :=
  match pending[serve % pending.length]? with
  | some r => some (r, pending.eraseIdx (serve % pending.length))
  | none => none

/-- `ExecuteB()`, R206. The clearing of BLIT is done by every meaning: each loads B. -/
def executeB (s : State) : Result := exec (decode s.ext s.blit s.b) s

/-- The instruction step or what comes before it: an interrupt if one is to be taken (R205, 3 and 4). -/
def interruptOrExecute (s : State) : Result :=
  match interruptToTake s with
  | some i => .next (vectorTo s i)
  | none => executeB s

/-- `Step()`, R205: GOJ, else one counter sequence, else an interrupt, else an instruction. -/
def stepCycle (s : State) : Result :=
  let t := atBoundary s
  if (nextBoundary s).goj then .next (goj t)
  else
    match chooseRequest t.pending (nextBoundary s).serve with
    | some (r, rest) => .next (doSequence (t.setPending rest) r)
    | none => interruptOrExecute t

/-- The state in which the next step runs the instruction whose key is `w`: bit 15 is EXT and bits 14 to 0 the word
(30_encoding.md R152); nothing stands before it (log 2). -/
def placeInstruction (s : State) (w : Nat) : State :=
  (((((s.setB (BitVec.ofNat 15 w)).setExt (w.testBit 15)).setBlit false).setEnv []).setPending []).setRuptReq
    Latches.clear

end Sys2Proof.Machine
end

