-- ==== Sys2Proof/Machine/Step.lean ====
section
/-! DEFINITION. The step of the machine and the form in which the host places an instruction. -/

namespace Sys2Proof.Machine

/-- One step of the machine (40_common_arithmetic.md R205). -/
def step (s : State) : Host.Outcome State Fault Refusal := stepCycle s

/-- The host's placement of a row of the opcode table: the machine executes the word in B (R206), so the word goes there
and its bit 15 to EXT. -/
def State.withFetchWord (s : State) (_nbits w : Nat) : State := placeInstruction s w

end Sys2Proof.Machine
end

