-- ==== Sys2Proof/Safety.lean ====
section
/-! DEFINITION. The terms the statements use: the invariant of the machine, what an instruction leaves alone, and what a
store to an operand does to each register and cell. -/

/-- An INDEX instruction, under either of its names. -/
def Sys2Proof.Instr.isIndex : Sys2Proof.Instr → Bool
  | .index _ => true
  | .indexExt _ => true
  | .ndx _ => true
  | .ndxExt _ => true
  | _ => false

/-- A double-precision instruction whose address field is 0 (93_implementation_defined.md U3). -/
def Sys2Proof.Instr.fieldZero (i : Sys2Proof.Instr) : Bool :=
  i == .das 0#10 || i == .dxch 0#10 || i == .dca 0#12 || i == .dcs 0#12

namespace Sys2Proof.Machine

/-! ### The invariant -/

/-- No channel that is a register of the CPU is listed among the other channels (10_state.md R77, R80). -/
def State.chanOrdinary (s : State) : Prop := ∀ p ∈ s.chan, p.1 ≠ 1 ∧ p.1 ≠ 2 ∧ p.1 ≠ 7

/-- The memories are in canonical form, erasable memory lists none of E[0][0] to E[0][7] (10_state.md R21) and nothing
past the 2048 words of R103, the ropes nothing past their 36 banks, the channels nothing past 0o777 and none of 1, 2, 7. -/
def State.Inv (s : State) : Prop :=
  Memory.wf 0o10 0o4000 s.erasable = true ∧ Memory.wf 0 0o110000 s.rope = true ∧ Memory.wf 0 0o1000 s.chan = true
    ∧ s.chanOrdinary

/-! ### Frames -/

/-- The latches and the pending requests are unchanged. -/
def SameRequests (s t : State) : Prop := t.ruptReq = s.ruptReq ∧ t.pending = s.pending

/-- The flags INH and ISR, the ropes, what stands for the environment and the free-value counter are unchanged. -/
def SameHidden (s t : State) : Prop :=
  t.inh = s.inh ∧ t.isr = s.isr ∧ t.rope = s.rope ∧ t.inputChans = s.inputChans ∧ t.env = s.env
    ∧ t.freeCount = s.freeCount

/-- Every channel but 1 and 2, which are L and Q, is unchanged, and the environment has observed nothing more. -/
def SameChannels (s t : State) : Prop := t.sbank = s.sbank ∧ t.chan = s.chan ∧ t.observed = s.observed

/-- Everything is unchanged but A, L, Q, EBANK, FBANK, Z, B, BLIT, EXT, the cells of erasable memory and the elapsed
time. -/
def SameOutside (s t : State) : Prop := SameRequests s t ∧ SameHidden s t ∧ SameChannels s t

/-- EBANK and FBANK are unchanged. -/
def SameBanks (s t : State) : Prop := t.ebank = s.ebank ∧ t.fbank = s.fbank

/-- Every cell of erasable memory reads as before. -/
def SameErasable (s t : State) : Prop := ∀ bank off, eraseRead t bank off = eraseRead s bank off

/-- Every cell but the one at `loc` reads as before; that one reads as the edited `w`. -/
def StoredWord (s : State) (loc : Loc) (w : Word) (t : State) : Prop :=
  ∀ bank off, eraseRead t bank off = if loc = .eras bank off then edit bank off w else eraseRead s bank off

/-- Every cell but the one at `loc` reads as before; that one has been re-edited (20_memory.md R112). -/
def Reedited (s : State) (loc : Loc) (t : State) : Prop :=
  ∀ bank off, eraseRead t bank off
    = if loc = .eras bank off then edit bank off (eraseRead s bank off) else eraseRead s bank off

/-! ### The central registers after `WrOp(K, v)` to a location (40_common_arithmetic.md R198, 20_memory.md R110) -/

/-- A after a store of `v`. -/
def storedA (a : Acc) (loc : Loc) (v : Acc) : Acc := if loc = .reg .a then v else a

/-- L after a store of `v`. -/
def storedL (l : Word) (loc : Loc) (v : Acc) : Word := if loc = .reg .l then ovc v else l

/-- Q after a store of `v`. -/
def storedQ (q : Acc) (loc : Loc) (v : Acc) : Acc := if loc = .reg .q then v else q

/-- EBANK after a store of `v`: bits 11 to 9 of a word stored to EB, bits 3 to 1 of one stored to BB. -/
def storedEbank (e : EBank) (loc : Loc) (v : Acc) : EBank :=
  if loc = .reg .eb then (ovc v).extractLsb' 8 3
  else if loc = .reg .bb then (ovc v).extractLsb' 0 3
  else e

/-- FBANK after a store of `v`: bits 15 to 11 of a word stored to FB or BB. -/
def storedFbank (f : BitVec 5) (loc : Loc) (v : Acc) : BitVec 5 :=
  if loc = .reg .fb ∨ loc = .reg .bb then (ovc v).extractLsb' 10 5 else f

/-- Z after a store of `v`: bits 12 to 1 of a word stored to Z. -/
def storedZ (z : Addr) (loc : Loc) (v : Acc) : Addr := if loc = .reg .z then (ovc v).extractLsb' 0 12 else z

/-- The banks and the erasable cells are as a store of `v` to `loc` leaves them: at most one of them has changed. -/
def StoredBanks (s : State) (loc : Loc) (v : Acc) (t : State) : Prop :=
  t.ebank = storedEbank s.ebank loc v ∧ t.fbank = storedFbank s.fbank loc v ∧ StoredWord s loc (ovc v) t

/-! ### Endings -/

/-- The instruction has ended by fetching the word at `k` through the banks as it left them (40_common_arithmetic.md
R206): B holds it, Z stands one past `k`, BLIT is 0. -/
def NextAt (t : State) (k : Addr) : Prop := t.b = fetchWord (t.setZ k) k ∧ t.z = k + 1#12 ∧ t.blit = false

/-- The instruction has ended with the word `w` in B, Z one past `k`, BLIT 0. -/
def HoldsNext (t : State) (w : Word) (k : Addr) : Prop := t.b = w ∧ t.z = k + 1#12 ∧ t.blit = false

/-- `n` MCT have passed. -/
def Took (s t : State) (n : Nat) : Prop := t.mct = s.mct + n

/-- The instruction has ended by fetching the word at `k`, EXT is clear, and `n` MCT have passed. -/
def EndsAt (s t : State) (k : Addr) (n : Nat) : Prop := NextAt t k ∧ t.ext = false ∧ Took s t n

/-- Only A, L, Q, Z, B, BLIT, EXT and the elapsed time may differ: every bank register, every cell of erasable memory
and everything else is unchanged. -/
def RegistersOnly (s t : State) : Prop := SameBanks s t ∧ SameErasable s t ∧ SameOutside s t

/-- What a counter sequence leaves alone, whatever its counter (46_unprogrammed_sequences.md R380): A, L, Q, Z, B, BLIT,
EXT, INH, ISR, the bank registers and every cell but the one at `off` of bank E0. -/
def SequenceFrame (s t : State) (off : EOff) : Prop :=
  t.a = s.a ∧ t.l = s.l ∧ t.q = s.q ∧ t.z = s.z ∧ t.b = s.b ∧ t.blit = s.blit ∧ t.ext = s.ext ∧ SameBanks s t
    ∧ SameHidden s t ∧ t.sbank = s.sbank
    ∧ ∀ bank o, ¬(bank = 0#3 ∧ o = off) → eraseRead t bank o = eraseRead s bank o

/-- What every act of the environment leaves alone (60_exceptions.md R551): A, L, Q, Z, the bank registers, B, BLIT, EXT,
INH, ISR, fixed memory, the superbank bits, what has been observed and the elapsed time. -/
def ActFrame (s t : State) : Prop :=
  t.a = s.a ∧ t.l = s.l ∧ t.q = s.q ∧ t.z = s.z ∧ t.b = s.b ∧ t.blit = s.blit ∧ t.ext = s.ext ∧ SameBanks s t
    ∧ SameHidden s t ∧ t.sbank = s.sbank ∧ t.observed = s.observed ∧ Took s t 0

/-- The coming step runs the instruction in B: neither GOJ, nor a counter sequence, nor an interrupt comes before it
(40_common_arithmetic.md R205). -/
def RunsInstruction (s : State) : Prop :=
  (nextBoundary s).goj = false ∧ (atBoundary s).pending = [] ∧ interruptToTake (atBoundary s) = none

/-- The coming step takes the interrupt `i`: neither GOJ nor a counter sequence comes before it (R205). -/
def TakesInterrupt (s : State) (i : Interrupt) : Prop :=
  (nextBoundary s).goj = false ∧ (atBoundary s).pending = [] ∧ interruptToTake (atBoundary s) = some i

/-- A one's-complement counter after one count: 0o37777 to 0, -0 to +1. -/
def countUp (w : Word) : Word := if w = 0o37777#15 then 0#15 else if w = 0o77777#15 then 1#15 else w + 1#15

/-! ### Words -/

/-- The instruction's word under the Extracode flag (30_encoding.md R154, R155, R157, R158). -/
def HasWord (i : Instr) (ext : Bool) (w : Word) : Prop := extOf i = ext ∧ encode i = w

/-- An address as the addend of an instruction word. -/
def operand12 (k : Addr) : Word := k.setWidth 15

/-- A 10-bit address as the addend of an instruction word. -/
def operand10 (k : EAddr) : Word := k.setWidth 15

/-- A channel number as the addend of an instruction word. -/
def operand9 (c : ChanNo) : Word := c.setWidth 15

end Sys2Proof.Machine
end

