-- ==== Sys2Proof/Certificates/Slice0/Obligations.lean ====
section
/-! DEFINITION. The statements for the provers. `RdOp`, `Resolve` and `FetchWord` stand in them as the model's functions
`rdOp`, `resolve` and `fetchWord`; that `rdOp` gives A and Q 16 bits in the E0 window too is decision D9 of the spec
(log 23), and that an instruction ends by fetching the next word into B is its decision D6 (log 21). -/

open Sys2Proof Sys2Proof.Machine

/-! ### Decoding and encoding -/

/-- Words written out from the encodings of R154, R155 and R157, one or more for each family, decode to the instructions
they stand for; several are the examples of the rules (TC of R230, TCF of R234, DXCH of R274, BZF of R236, WAND of R344). -/
def Obligations.DecodeSampleWords : Prop :=
  decode false false 0o04200#15 = .tc 0o4200#12 ∧ decode false false 0o12345#15 = .tcf 0o2345#12
    ∧ decode false false 0o10100#15 = .ccs 0o100#10 ∧ decode false false 0o30100#15 = .ca 0o100#12
    ∧ decode false false 0o52071#15 = .dxch 0o71#10 ∧ decode false false 0o54100#15 = .ts 0o100#10
    ∧ decode false false 0o26100#15 = .ads 0o100#10 ∧ decode true false 0o14500#15 = .bzf 0o4500#12
    ∧ decode true false 0o03011#15 = .wand 0o11#9 ∧ decode true false 0o10100#15 = .dv 0o100#10
    ∧ decode true false 0o70100#15 = .mp 0o100#12 ∧ decode false false 0o50017#15 = .resume
    ∧ decode false true 0o50017#15 = .index 0o17#10 ∧ decode true false 0o50017#15 = .indexExt 0o17#12
    ∧ decode false false 0o00006#15 = .extend ∧ decode true false 0o00006#15 = .read 6#9
    ∧ decode false true 0o00006#15 = .tc 6#12

/-- DECODE AND ENCODE AGREE: the word of every well-formed instruction, met under its Extracode flag and under a value of
BLIT that admits it, decodes to the instruction, or to the one a second name of R158 stands for. -/
def Obligations.DecodeOfEncode : Prop :=
  ∀ (i : Instr) (blit : Bool), i.wellFormed = true → i.fitsBlit blit = true →
    decode (extOf i) blit (encode i) = i.canonical

/-- The map is total and loses nothing (R156): what any word decodes to under any flags is a well-formed instruction of
its own name whose encoding is that word under that Extracode flag. -/
def Obligations.EncodeOfDecode : Prop :=
  ∀ (ext blit : Bool) (w : Word),
    encode (decode ext blit w) = w ∧ extOf (decode ext blit w) = ext ∧ (decode ext blit w).wellFormed = true
      ∧ (decode ext blit w).fitsBlit blit = true ∧ (decode ext blit w).canonical = decode ext blit w

/-! ### The step -/

/-- A step lets the environment act and then does exactly one of four things, tried in this order (R205, whose order is
the spec's decision D19): GOJ, one pending counter sequence, one interrupt, the instruction in B. The acts are those of the
next boundary in `env`, in order (log 8), and each changes at most this: a counter request is posted, DINC only while bit 15
of channel 0o13 is 1 (R385), one for a hand-controller counter only while bits 8 and 9 are 1 (R58; that PINC and MINC serve
it is read from R49 and R58, log 41); a latch is set, RUPT10 only under a trap condition (R522, decision D28); an input
channel returns a new value (R551 (3)), input channels being 0o31 and 0o32 (R81, R550) and those listed, the model's choice
(log 11), but never the registers 1, 2, 7 and the outputs 5, 6, 0o13, 0o14, 0o34, 0o35 (R77 to R81); LOSCALAR counts, and its overflow counts
HISCALAR, the only change of these two input channels (R78, log 10); a command counter whose drive bit of channel 0o14 is 1 is cleared (R394, log 9). -/
def Obligations.StepOrder : Prop :=
  (∀ (s : State) (e : EnvEvent),
    let t := applyEvent s e
    let w13 := s.chan.read 0o13
    let trap := (!w13.getLsbD 11 && (s.chan.read 0o31).extractLsb' 0 6 != 0)
      || (!w13.getLsbD 12 && (s.chan.read 0o31).extractLsb' 6 6 != 0)
      || (!w13.getLsbD 13 && (s.chan.read 0o32).extractLsb' 0 10 != 0)
    ActFrame s t
      ∧ t.pending = (match e with
          | .count r =>
            if (r = .dinc ∧ w13.getLsbD 14 = false)
              ∨ (r ∈ [.pinc .rhcp, .pinc .rhcy, .pinc .rhcr, .minc .rhcp, .minc .rhcy, .minc .rhcr]
                ∧ (w13.getLsbD 7 = false ∨ w13.getLsbD 8 = false))
            then s.pending else s.pending ++ [r]
          | _ => s.pending)
      ∧ t.ruptReq = (match e with
          | .keyRupt1 => s.ruptReq.put .keyrupt1 true
          | .keyRupt2 => s.ruptReq.put .keyrupt2 true
          | .downRupt => s.ruptReq.put .downrupt true
          | .radarRupt => s.ruptReq.put .radarRupt true
          | .handRupt => if trap then s.ruptReq.put .rupt10 true else s.ruptReq
          | _ => s.ruptReq)
      ∧ (∀ d, chanRead t d = (match e with
          | .channel c v =>
            if d = c ∧ (c ∈ [0o31#9, 0o32#9] ∨ c ∈ s.inputChans
              ∧ c ∉ [1#9, 2#9, 3#9, 4#9, 5#9, 6#9, 7#9, 0o13#9, 0o14#9, 0o34#9, 0o35#9])
            then sext16 v else chanRead s d
          | .scaler =>
            if d = 4#9 then sext16 (countUp (s.chan.read 4))
            else if d = 3#9 ∧ s.chan.read 4 = 0o37777#15 then sext16 (countUp (s.chan.read 3))
            else chanRead s d
          | _ => chanRead s d))
      ∧ ∀ bank off, eraseRead t bank off = (match e with
          | .drain c =>
            if bank = 0#3 ∧ off = (match c with
                | .gyroctr => 0o47#8 | .cduxcmd => 0o50#8 | .cduycmd => 0o51#8 | .cduzcmd => 0o52#8)
              ∧ (s.chan.read 0o14).getLsbD (match c with
                | .gyroctr => 9 | .cduxcmd => 14 | .cduycmd => 13 | .cduzcmd => 12) = true
            then 0#15 else eraseRead s bank off
          | _ => eraseRead s bank off))
  ∧ ∀ s : State,
    let u := atBoundary s
    (s.env = [] → u = s ∧ (nextBoundary s).goj = false)
      ∧ (∀ b rest, s.env = b :: rest → nextBoundary s = b ∧ u = b.events.foldl applyEvent { s with env := rest })
      ∧ ((nextBoundary s).goj = true → step s = .next (goj u))
      ∧ ((nextBoundary s).goj = false → u.pending ≠ [] →
          ∃ r rest, r ∈ u.pending ∧ u.pending.Perm (r :: rest) ∧ step s = .next (doSequence (u.setPending rest) r))
      ∧ ((nextBoundary s).goj = false → u.pending = [] → ∀ i, interruptToTake u = some i →
          step s = .next (vectorTo u i))
      ∧ ((nextBoundary s).goj = false → u.pending = [] → interruptToTake u = none →
          step s = exec (decode u.ext u.blit u.b) u)

/-- A STEP RUNS THE DECODED INSTRUCTION (R206): where the environment does nothing, no counter request is pending and no
interrupt is to be taken, the step is `exec` of what B decodes to, which is well-formed; and an instruction placed by the
host is what the next step runs. -/
def Obligations.StepRunsDecoded : Prop :=
  (∀ s : State, s.env = [] → s.pending = [] → interruptToTake s = none →
      (decode s.ext s.blit s.b).wellFormed = true ∧ step s = exec (decode s.ext s.blit s.b) s)
    ∧ ∀ (s : State) (w : Nat) (i : Instr), decodeTableWord 16 w = some i →
        step (s.withFetchWord 16 w) = exec i (s.withFetchWord 16 w)

/-- GOJ (R570): ISR, EXT and BLIT are cleared, B is the word at 0o4000, Z 0o4001, 2 MCT pass, and everything else is as
the boundary found it. The clearing of EXT and BLIT and the keeping of the rest are the spec's decision D12 (log 20). -/
def Obligations.GojRestarts : Prop :=
  ∀ s : State, (nextBoundary s).goj = true →
    let u := atBoundary s
    ∃ t, step s = .next t ∧ t.isr = false ∧ t.ext = false ∧ HoldsNext t (u.rope.read 0o4000) 0o4000#12 ∧ Took u t 2
      ∧ t.a = u.a ∧ t.l = u.l ∧ t.q = u.q ∧ SameBanks u t ∧ SameErasable u t ∧ SameRequests u t ∧ SameChannels u t
      ∧ t.inh = u.inh ∧ t.rope = u.rope ∧ t.inputChans = u.inputChans ∧ t.env = u.env ∧ t.freeCount = u.freeCount

/-- When an interrupt is possible (R523 (a) to (f)) and which is taken (R526): the one with the lowest number, and one is
taken whenever a latch is set. Clause (e) is the spec's decision D7, (d) D25, the priority D13 (log 22, 26, 27). -/
def Obligations.InterruptConditions : Prop :=
  ∀ s : State,
    (interruptPossible s = true ↔ s.inh = false ∧ s.isr = false ∧ s.ext = false ∧ ovf s.a = .none ∧ s.blit = false
        ∧ s.b ≠ 0o00003#15 ∧ s.b ≠ 0o00004#15 ∧ s.b ≠ 0o00006#15)
      ∧ (∀ i, interruptToTake s = some i ↔ interruptPossible s = true ∧ s.ruptReq.get i = true
          ∧ ∀ j : Interrupt, j.number < i.number → s.ruptReq.get j = false)
      ∧ (interruptToTake s = none ↔ interruptPossible s = false ∨ ∀ i, s.ruptReq.get i = false)

/-- TAKING AN INTERRUPT (R525): ZRUPT takes Z and BRUPT takes B as plain cells, the latch is cleared, ISR set, B is the
word at 0o4000 + 4 i, Z one past it; nothing else changes. That no time is charged is no rule of the source but the model's
choice (R525: "the model charges ... 0 MCT"; 91_not_in_source.md N10; log 17, DESIGN CHOICE). -/
def Obligations.InterruptEntry : Prop :=
  ∀ (s : State) (i : Interrupt), s.env = [] → s.pending = [] → interruptToTake s = some i →
    ∃ t, step s = .next t
      ∧ eraseRead t 0#3 0o15#8 = zext15 s.z ∧ eraseRead t 0#3 0o17#8 = s.b
      ∧ (∀ bank off, ¬(bank = 0#3 ∧ (off = 0o15#8 ∨ off = 0o17#8)) → eraseRead t bank off = eraseRead s bank off)
      ∧ t.ruptReq = s.ruptReq.put i false ∧ t.isr = true
      ∧ HoldsNext t (s.rope.read (0o4000 + 4 * i.number)) (BitVec.ofNat 12 (0o4000 + 4 * i.number))
      ∧ t.a = s.a ∧ t.l = s.l ∧ t.q = s.q ∧ SameBanks s t ∧ SameChannels s t ∧ t.inh = s.inh ∧ t.ext = s.ext
      ∧ t.pending = s.pending ∧ t.rope = s.rope ∧ t.inputChans = s.inputChans ∧ t.env = s.env
      ∧ t.freeCount = s.freeCount ∧ Took s t 0

/-- RETURNING FROM AN INTERRUPT (R528): from any state whose ZRUPT and BRUPT still hold what the entry of an interrupt at
`s` saved, RESUME gives back the B and Z of `s` and clears ISR. -/
def Obligations.ResumeAfterInterrupt : Prop :=
  ∀ (s r : State) (i : Interrupt), eraseRead r 0#3 0o15#8 = eraseRead (vectorTo s i) 0#3 0o15#8 →
    eraseRead r 0#3 0o17#8 = eraseRead (vectorTo s i) 0#3 0o17#8 →
    ∃ t, exec .resume r = .next t ∧ t.b = s.b ∧ t.z = s.z ∧ t.isr = false ∧ t.blit = false

/-- A set latch stays set through every step but the one that takes its interrupt: through the acts of the environment,
every counter sequence, every instruction, the taking of another interrupt and GOJ (R524; that GOJ keeps it is the spec's
decision D12, log 20; that its own entry clears it is decision D14, log 37). -/
def Obligations.LatchesStay : Prop :=
  ∀ (s t : State) (i : Interrupt), step s = .next t → s.ruptReq.get i = true →
    (¬TakesInterrupt s i → t.ruptReq.get i = true) ∧ (TakesInterrupt s i → t.ruptReq.get i = false)

/-- A step that runs INHINT sets INH, one that runs RELINT clears it, and no other step changes it (R34); a step that takes
an interrupt or runs EDRUPT sets ISR, a GOJ or a step that runs RESUME clears it, and no other step changes it (R35). That
EDRUPT sets ISR is the spec's decision D15 (log 28). -/
def Obligations.FlagWriters : Prop :=
  ∀ s t : State, step s = .next t →
    let u := atBoundary s
    let runs := fun i : Instr => RunsInstruction s ∧ decode u.ext u.blit u.b = i
    (runs .inhint → t.inh = true) ∧ (runs .relint → t.inh = false)
      ∧ (¬runs .inhint → ¬runs .relint → t.inh = s.inh)
      ∧ ((nextBoundary s).goj = true → t.isr = false) ∧ (runs .resume → t.isr = false)
      ∧ (∀ i, TakesInterrupt s i → t.isr = true) ∧ (∀ c, runs (.edrupt c) → t.isr = true)
      ∧ ((nextBoundary s).goj = false → ¬runs .resume → (∀ i, ¬TakesInterrupt s i) → (∀ c, ¬runs (.edrupt c)) →
          t.isr = s.isr)

/-- Every instruction but EXTEND and INDEX ends with EXT clear, EXTEND sets it, INDEX leaves it (R202); and B is to be
decoded literally exactly when INDEX formed it (R32, R366). That such a word is decoded literally, and that the word RESUME
takes from BRUPT is not, is the spec's decision D7 (log 22). -/
def Obligations.ExtracodeFlag : Prop :=
  ∀ (i : Instr) (s t : State), exec i s = .next t →
    t.ext = (if i = .extend then true else if i.isIndex then s.ext else false) ∧ t.blit = i.isIndex

/-- A step always goes on, but for DAS, DXCH, DCA and DCS with address field 0, which are refused by name (20_memory.md
R114: "no source says what happens and the model refuses it"; 93_implementation_defined.md U3, log 12): no instruction,
operand, address or result traps (R520 (c), R533). -/
def Obligations.StepGoesOn : Prop :=
  (∀ s : State, (∃ t, step s = .next t)
    ∨ ((decode (atBoundary s).ext (atBoundary s).blit (atBoundary s).b).fieldZero = true
        ∧ ∃ name, step s = .refused (.dpFieldZero name)))
    ∧ ∀ s : State, exec (.das 0#10) s = .refused (.dpFieldZero "DAS") ∧ exec (.dxch 0#10) s = .refused (.dpFieldZero "DXCH")
      ∧ exec (.dca 0#12) s = .refused (.dpFieldZero "DCA") ∧ exec (.dcs 0#12) s = .refused (.dpFieldZero "DCS")

/-- Fixed memory is read-only (R111): no step changes any word of it. -/
def Obligations.FixedMemoryReadOnly : Prop := ∀ s t : State, step s = .next t → t.rope = s.rope

/-- AN INVARIANT THAT EVERY STEP KEEPS: the memories keep their canonical form and their bounds, the words E[0][0] to
E[0][7] are never written (R21), and no register is listed among the channels (R77, R80). -/
def Obligations.StepKeepsInv : Prop := ∀ s t : State, s.Inv → step s = .next t → t.Inv

/-- The state after power-up (R571): Z at 0o4001, B the word at 0o4000, ISR clear, nothing pending, address 7 reads 0, and
the invariant. That EXT and BLIT are clear is no statement of the source but the spec's decision D12 (log 20). -/
def Obligations.PowerUp : Prop :=
  State.reset.z = 0o4001#12 ∧ State.reset.b = State.reset.rope.read 0o4000 ∧ State.reset.blit = false
    ∧ State.reset.ext = false ∧ State.reset.isr = false ∧ State.reset.pending = [] ∧ memRead State.reset 7#12 = 0#15
    ∧ State.reset.Inv

/-! ### Arithmetic and memory -/

/-- One's-complement addition (R196): without overflow in the operands, overflow is the exact sum leaving the range of a
word, and otherwise the sum is exact. -/
def Obligations.OnesComplementSum : Prop :=
  ∀ x y : Word,
    let sum := add1c16 (sext16 x) (sext16 y)
    (ovf sum = .pos ↔ 16383 < val x + val y) ∧ (ovf sum = .neg ↔ val x + val y < -16383)
      ∧ (ovf sum = .none → val (ovc sum) = val x + val y ∧ sext16 (ovc sum) = sum)

/-- What an address reaches (R100 to R106): unswitched erasable memory, the window of bank EBANK, the bank of common fixed
memory that FBANK and channel 7 select, and fixed-fixed memory. With EBANK = 0 the first eight addresses of the window reach
the registers of addresses 0 to 7 (R104), whose words `RegisterWords` gives. With no rope selected the read gives the parameter
NoRopeWord (R107, the spec's decision D10, log 4). -/
def Obligations.MemoryMap : Prop :=
  ∀ (s : State) (k : Addr),
    let n := k.toNat
    (s.ebank = 0#3 → 0o1400 ≤ n → n < 0o1410 → memRead s k = memRead s (k - 0o1400#12)
        ∧ ∀ w, memWrite s k w = memWrite s (k - 0o1400#12) w)
      ∧ (8 ≤ n → n < 0o1400 → memRead s k = s.erasable.read n)
      ∧ (0o1400 ≤ n → n < 0o2000 → s.ebank ≠ 0#3 ∨ 0o1410 ≤ n →
          memRead s k = s.erasable.read (s.ebank.toNat * 0o400 + (n - 0o1400)))
      ∧ (0o2000 ≤ n → n < 0o4000 →
          memRead s k =
            (if s.fbank.toNat < 0o30 ∨ s.sbank.toNat < 4 then s.rope.read (s.fbank.toNat * 0o2000 + (n - 0o2000))
             else if s.sbank.toNat = 4 ∧ s.fbank.toNat < 0o34 then
               s.rope.read ((s.fbank.toNat + 0o10) * 0o2000 + (n - 0o2000))
             else Config.noRopeWord))
      ∧ (0o4000 ≤ n → memRead s k = s.rope.read n)

/-- What addresses 0 to 7 read (R110): A and Q overflow-corrected, L, EBANK at bits 11 to 9, FBANK at bits 15 to 11, Z, BB
made of both banks, and 0; and a word written there and read back: A, L and Q keep it, EB, FB, Z and BB keep their own bits,
address 7 reads 0 whatever was written. With EBANK = 0 addresses 0o1400 to 0o1407 do the same (R104). That the unused bits
read 0 and are discarded is the spec's decision D17 (log 25). -/
def Obligations.RegisterWords : Prop :=
  ∀ (s : State) (w : Word),
    (memRead s 0#12 = ovc s.a ∧ memRead s 1#12 = s.l ∧ memRead s 2#12 = ovc s.q
      ∧ (memRead s 3#12).toNat = s.ebank.toNat * 2 ^ 8 ∧ (memRead s 4#12).toNat = s.fbank.toNat * 2 ^ 10
      ∧ (memRead s 5#12).toNat = s.z.toNat ∧ (memRead s 6#12).toNat = s.fbank.toNat * 2 ^ 10 + s.ebank.toNat)
    ∧ (∀ k : Addr, s.ebank = 0#3 → k < 8#12 → memRead s (0o1400#12 + k) = memRead s k
      ∧ memWrite s (0o1400#12 + k) w = memWrite s k w) ∧
    memRead (memWrite s 0#12 w) 0#12 = w ∧ memRead (memWrite s 1#12 w) 1#12 = w ∧ memRead (memWrite s 2#12 w) 2#12 = w
      ∧ memRead (memWrite s 3#12 w) 3#12 = w &&& 0o03400#15 ∧ memRead (memWrite s 4#12 w) 4#12 = w &&& 0o76000#15
      ∧ memRead (memWrite s 5#12 w) 5#12 = w &&& 0o07777#15 ∧ memRead (memWrite s 6#12 w) 6#12 = w &&& 0o76007#15
      ∧ memWrite s 7#12 w = s ∧ memRead s 7#12 = 0#15

/-- The editing registers (R45 to R48): a word written to CYR is stored cycled right, to SR shifted right with its sign,
to CYL cycled left, to EDOP shifted right seven places with the upper eight bits zeroed; each such write leaves every other
cell and every register as it was. That CYL is edited on the write and not on the read is the spec's own reading (R47,
90_conflicts.md C6). -/
def Obligations.EditingRegisters : Prop :=
  ∀ (s : State) (w : Word),
    memRead (memWrite s 0o20#12 w) 0o20#12 = w.rotateRight 1 ∧ memRead (memWrite s 0o21#12 w) 0o21#12 = w.sshiftRight 1
      ∧ memRead (memWrite s 0o22#12 w) 0o22#12 = w.rotateLeft 1
      ∧ memRead (memWrite s 0o23#12 w) 0o23#12 = (w >>> 7) &&& 0o00177#15
      ∧ ∀ r : EOff, 0o20#8 ≤ r → r ≤ 0o23#8 →
          let t := memWrite s (r.setWidth 12) w
          (∀ bank off, ¬(bank = 0#3 ∧ off = r) → eraseRead t bank off = eraseRead s bank off)
            ∧ { t with erasable := s.erasable } = s

/-- A channel write and what every channel reads afterwards (R118): Q takes all 16 bits, channel 7 bits 7 to 5, L and
every other channel the overflow-corrected word. That an input channel keeps what the environment presents is the spec's
parameter ChannelEnv (D18); which channels are inputs is the model's choice (log 11), but for the scaler channels 3 and 4
and 0o31 and 0o32, which always are (R550), and the registers and the output channels, which never are. -/
def Obligations.ChannelStorage : Prop :=
  ∀ (s : State) (c : ChanNo) (v : Acc),
    chanRead (chanWrite s c v) c
        = (if c = 2#9 then v
           else if c = 7#9 then v &&& 0o000160#16
           else if c ∈ [3#9, 4#9, 0o31#9, 0o32#9]
              ∨ c ∈ s.inputChans ∧ c ∉ [1#9, 2#9, 5#9, 6#9, 7#9, 0o13#9, 0o14#9, 0o34#9, 0o35#9]
            then chanRead s c
           else sext16 (ovc v))
      ∧ ∀ d, d ≠ c → chanRead (chanWrite s c v) d = chanRead s d

/-! ### Counter sequences -/

/-- PINC (R381, R382): +1 in one's complement, 0o37777 to 0 and -0 to +1; the overflow of TIME1 requests a PINC of TIME2,
those of TIME3, TIME4 and TIME5 raise their interrupts, the others do nothing; of TIME2, whose overflow the source does not
speak of, that is the spec's decision D16 (R382: "the model gives it none"; log 29). That PINC serves the hand controller's
counters RHCP, RHCY and RHCR is read from R49 and R58 (log 41). -/
def Obligations.PincCounts : Prop :=
  ∀ (s : State) (c : PincCounter),
    let w := counter s c.off
    let t := doSequence s (.pinc c)
    counter t c.off = (if w = 0o37777#15 then 0#15 else if w = 0o77777#15 then 1#15 else w + 1#15)
      ∧ t.pending = (if w = 0o37777#15 ∧ c = .time1 then s.pending ++ [.pinc .time2] else s.pending)
      ∧ t.ruptReq = (if w = 0o37777#15 then
          (match c with
            | .time3 => s.ruptReq.put .t3rupt true
            | .time4 => s.ruptReq.put .t4rupt true
            | .time5 => s.ruptReq.put .t5rupt true
            | _ => s.ruptReq)
          else s.ruptReq)
      ∧ SequenceFrame s t c.off ∧ SameChannels s t ∧ Took s t 1

/-- MINC (R384): -1 in one's complement, 0o40000 to -0 and 0 to -1; PCDU (R383) and MCDU (R388): +1 and -1 modulo 2^15.
None raises an interrupt. That MINC serves the accelerometer counters is said of them in R57; that it serves the hand
controller's RHCP, RHCY and RHCR is read from R49 and R58 (log 41). -/
def Obligations.PlainCounts : Prop :=
  ∀ s : State,
    (∀ c : MincCounter,
      let w := counter s c.off
      let t := doSequence s (.minc c)
      counter t c.off = (if w = 0o40000#15 ∨ w = 1#15 then 0o77777#15 else if w = 0#15 then 0o77776#15 else w - 1#15)
        ∧ SequenceFrame s t c.off ∧ SameRequests s t ∧ SameChannels s t ∧ Took s t 1)
    ∧ (∀ c : CduCounter,
      let t := doSequence s (.pcdu c)
      counter t c.off = counter s c.off + 1#15
        ∧ SequenceFrame s t c.off ∧ SameRequests s t ∧ SameChannels s t ∧ Took s t 1)
    ∧ (∀ c : CduCounter,
      let t := doSequence s (.mcdu c)
      counter t c.off = counter s c.off - 1#15
        ∧ SequenceFrame s t c.off ∧ SameRequests s t ∧ SameChannels s t ∧ Took s t 1)

/-- DINC of TIME6 (R385): at +0 or -0 the counter stays, ZOUT is emitted, bit 15 of channel 0o13 is cleared and T6RUPT
requested; a positive count goes down by one with POUT, a negative one up by one with MOUT, and both 1 and -1 end in -0. The
environment's request is made only while bit 15 of channel 0o13 is 1. -/
def Obligations.DincCounts : Prop :=
  ∀ s : State,
    let w := counter s 0o31#8
    let t := doSequence s .dinc
    SequenceFrame s t 0o31#8 ∧ t.pending = s.pending ∧ Took s t 1
      ∧ (w = 0#15 ∨ w = 0o77777#15 → counter t 0o31#8 = w ∧ t.observed = .zout :: s.observed
          ∧ t.ruptReq = s.ruptReq.put .t6rupt true ∧ chanRead t 0o13#9 = (chanRead s 0o13#9) &&& 0o037777#16
          ∧ ∀ c, c ≠ 0o13#9 → chanRead t c = chanRead s c)
      ∧ (w ≠ 0#15 → w.toNat < 0o40000 → counter t 0o31#8 = (if w = 1#15 then 0o77777#15 else w - 1#15)
          ∧ t.observed = .pout :: s.observed ∧ t.ruptReq = s.ruptReq ∧ t.chan = s.chan)
      ∧ (w ≠ 0o77777#15 → 0o40000 ≤ w.toNat → counter t 0o31#8 = w + 1#15
          ∧ t.observed = .mout :: s.observed ∧ t.ruptReq = s.ruptReq ∧ t.chan = s.chan)
      ∧ applyEvent s (.count .dinc) =
          (if (chanRead s 0o13#9).getLsbD 14 then s.setPending (s.pending ++ [.dinc]) else s)

/-- SHINC and SHANC (R386, R387): the counter is shifted left by one place and a 0 or a 1 comes in; a 1 that leaves bit 15
requests UPRUPT, RADAR RUPT or DOWNRUPT. That this is the "overflow" of a shift is the spec's decision D26 (log 33). -/
def Obligations.ShiftCounts : Prop :=
  ∀ (s : State) (c : ShiftCounter) (one : Bool),
    let w := counter s c.off
    let t := doSequence s (if one then .shanc c else .shinc c)
    counter t c.off = (w <<< 1) + (if one then 1#15 else 0#15)
      ∧ t.ruptReq = (if 0o40000 ≤ w.toNat then
          (match c with
            | .inlink => s.ruptReq.put .uprupt true
            | .rnrad => s.ruptReq.put .radarRupt true
            | .outlink => s.ruptReq.put .downrupt true)
          else s.ruptReq)
      ∧ t.pending = s.pending ∧ SequenceFrame s t c.off ∧ SameChannels s t ∧ Took s t 1

/-! ### Control transfer -/

/-- TC and TCR (R230): B is the word at K, read first; Q the address following the instruction; Z = K + 1 modulo 0o10000;
1 MCT; nothing else changes. -/
def Obligations.TransferControl : Prop :=
  ∀ (k : Addr) (s : State),
    let post := fun t : State => HoldsNext t (fetchWord s k) k ∧ t.q = zext16 s.z ∧ t.a = s.a ∧ t.l = s.l
      ∧ t.ext = false ∧ RegistersOnly s t ∧ Took s t 1
    HasWord (.tc k) false (operand12 k) ∧ HasWord (.tcr k) false (operand12 k)
      ∧ (∃ t, exec (.tc k) s = .next t ∧ post t) ∧ (∃ t, exec (.tcr k) s = .next t ∧ post t)

/-- XXALQ, XLQ and RETURN (R231 to R233): TC of A, L and Q. The word executed is the register's, overflow-corrected for A
and Q (the spec's decision D8); RETURN takes the old Q. RETURN is charged the 1 MCT of its own TC (log 17). -/
def Obligations.TransferToRegister : Prop :=
  ∀ s : State,
    let post := fun t : State => t.q = zext16 s.z ∧ t.a = s.a ∧ t.l = s.l ∧ t.ext = false ∧ RegistersOnly s t ∧ Took s t 1
    HasWord .xxalq false 0o00000#15 ∧ HasWord .xlq false 0o00001#15 ∧ HasWord .returnQ false 0o00002#15
      ∧ (∃ t, exec .xxalq s = .next t ∧ HoldsNext t (ovc s.a) 0#12 ∧ post t)
      ∧ (∃ t, exec .xlq s = .next t ∧ HoldsNext t s.l 1#12 ∧ post t)
      ∧ (∃ t, exec .returnQ s = .next t ∧ HoldsNext t (ovc s.q) 2#12 ∧ post t)

/-- TCF and NOOP (R234, R235): TCF takes the word at K through the banks as they are to B, Z = K + 1 modulo 0o10000, 1 MCT;
NOOP is CA A in erasable memory, 2 MCT, and in fixed memory TCF to the next address, which Z holds. Neither has any other
effect; Q is unchanged. -/
def Obligations.TransferToFixed : Prop :=
  ∀ (k : Addr) (s : State),
    HasWord (.tcf k) false (0o10000#15 + operand12 k) ∧ HasWord .noop false 0o30000#15
      ∧ (∃ t, exec (.tcf k) s = .next t ∧ HoldsNext t (fetchWord s k) k ∧ t.a = s.a ∧ t.l = s.l ∧ t.q = s.q
        ∧ t.ext = false ∧ RegistersOnly s t ∧ Took s t 1 ∧ (k = s.z → NextAt t s.z))
      ∧ ∃ t, exec .noop s = .next t ∧ t.a = s.a ∧ t.l = s.l ∧ t.q = s.q ∧ RegistersOnly s t ∧ EndsAt s t s.z 2

/-- BZF and BZMF (R236, R237): BZF transfers when all 16 bits of A are 0 or all are 1, BZMF when they are 0 or bit 16 is 1;
1 MCT when the branch is taken, 2 when it falls through. A, Q and everything else are unchanged. -/
def Obligations.BranchToFixed : Prop :=
  ∀ (k : Addr) (s : State),
    let post := fun (taken : Prop) (t : State) => t.a = s.a ∧ t.l = s.l ∧ t.q = s.q ∧ t.ext = false ∧ RegistersOnly s t
      ∧ (taken → HoldsNext t (fetchWord s k) k ∧ Took s t 1) ∧ (¬taken → NextAt t s.z ∧ Took s t 2)
    HasWord (.bzf k) true (0o10000#15 + operand12 k) ∧ HasWord (.bzmf k) true (0o60000#15 + operand12 k)
      ∧ (∃ t, exec (.bzf k) s = .next t ∧ post (s.a = 0o000000#16 ∨ s.a = 0o177777#16) t)
      ∧ (∃ t, exec (.bzmf k) s = .next t ∧ post (s.a = 0o000000#16 ∨ 0o100000 ≤ s.a.toNat) t)

/-- CCS (R238): A is the diminished absolute value of K's 16-bit value (|v| - 1 if |v| > 1, else +0), and the next
instruction is the first, second, third or fourth after the CCS for K > +0 or positive overflow, K = +0, K < -0 or
negative overflow, K = -0; K is re-edited; 2 MCT. -/
def Obligations.CountCompareSkip : Prop :=
  ∀ (k : EAddr) (s : State),
    let v := rdOp s (ea k)
    let m := if v.toNat < 0o100000 then v.toNat else 0o177777 - v.toNat
    HasWord (.ccs k) false (0o10000#15 + operand10 k)
      ∧ ∃ t, exec (.ccs k) s = .next t ∧ t.a.toNat = (if 1 < m then m - 1 else 0) ∧ t.l = s.l ∧ t.q = s.q
        ∧ SameBanks s t ∧ SameOutside s t ∧ Reedited s (resolve s (ea k)) t
        ∧ EndsAt s t (s.z + (if v = 0o000000#16 then 1#12 else if v = 0o177777#16 then 3#12
            else if v.toNat < 0o100000 then 0#12 else 2#12)) 2

/-! ### Load, store and exchange -/

/-- CA, CAE and CAF (R260): A is K's value, 16 bits from A or Q, sign-extended otherwise; K is re-edited; 2 MCT. -/
def Obligations.ClearAndAdd : Prop :=
  ∀ (k : Addr) (s : State),
    let post := fun t : State => t.a = rdOp s k ∧ t.l = s.l ∧ t.q = s.q ∧ SameBanks s t ∧ SameOutside s t
      ∧ Reedited s (resolve s k) t ∧ EndsAt s t s.z 2
    HasWord (.ca k) false (0o30000#15 + operand12 k) ∧ HasWord (.cae k) false (0o30000#15 + operand12 k)
      ∧ HasWord (.caf k) false (0o30000#15 + operand12 k)
      ∧ (∃ t, exec (.ca k) s = .next t ∧ post t) ∧ (∃ t, exec (.cae k) s = .next t ∧ post t)
      ∧ (∃ t, exec (.caf k) s = .next t ∧ post t)

/-- CS (R261): A is the complement of K's 16-bit value; K is re-edited; 2 MCT. -/
def Obligations.ClearAndSubtract : Prop :=
  ∀ (k : Addr) (s : State),
    HasWord (.cs k) false (0o40000#15 + operand12 k)
      ∧ ∃ t, exec (.cs k) s = .next t ∧ t.a = ~~~(rdOp s k) ∧ t.l = s.l ∧ t.q = s.q ∧ SameBanks s t ∧ SameOutside s t
        ∧ Reedited s (resolve s k) t ∧ EndsAt s t s.z 2

/-- COM and DCOM (R262, R265): all 16 bits of A, for DCOM also all 15 bits of L, are complemented; 2 and 3 MCT. -/
def Obligations.Complements : Prop :=
  ∀ s : State,
    HasWord .com false 0o40000#15 ∧ HasWord .dcom true 0o40001#15
      ∧ (∃ t, exec .com s = .next t ∧ t.a = ~~~s.a ∧ t.l = s.l ∧ t.q = s.q ∧ RegistersOnly s t ∧ EndsAt s t s.z 2)
      ∧ ∃ t, exec .dcom s = .next t ∧ t.a = ~~~s.a ∧ t.l = ~~~s.l ∧ t.q = s.q ∧ RegistersOnly s t ∧ EndsAt s t s.z 3

/-- DCA (R263), for every pair but that of field 0: L takes the overflow-corrected low word first, A the high word, both
words are re-edited; 3 MCT. For the pair (L, Q), field 2, A takes all 16 bits of Q (the spec's decision D22, log 24). A
high word that is L through the E0 window is read after L is written (log 14). -/
def Obligations.DoubleClearAndAdd : Prop :=
  ∀ (f : Addr) (s : State), f ≠ 0#12 →
    HasWord (.dca f) true (0o30000#15 + operand12 f)
      ∧ ∃ t, exec (.dca f) s = .next t ∧ t.l = ovc (rdOp s f)
        ∧ t.a = (if f = 2#12 then s.q else if resolve s (f - 1#12) = .reg .l then sext16 (ovc (rdOp s f)) else rdOp s (f - 1#12))
        ∧ t.q = s.q ∧ SameBanks s t ∧ SameOutside s t ∧ EndsAt s t s.z 3
        ∧ ∀ bank off, eraseRead t bank off =
            if resolve s f = .eras bank off ∨ resolve s (f - 1#12) = .eras bank off then edit bank off (eraseRead s bank off)
            else eraseRead s bank off

/-- DCS (R264), for every pair but that of field 0: as DCA with both words complemented. For the pair (L, Q), field 2, the
files of the spec differ, and what A takes is the model's choice between them (log 24): all 16 bits of Q complemented, as
decision D22 ("complemented for DCS") and the vector V42-35 have it, not Q itself, as the pseudocode and the quotation of
R264 have it; L takes the complement of Q. -/
def Obligations.DoubleClearAndSubtract : Prop :=
  ∀ (f : Addr) (s : State), f ≠ 0#12 →
    HasWord (.dcs f) true (0o40000#15 + operand12 f)
      ∧ ∃ t, exec (.dcs f) s = .next t ∧ t.l = ovc (~~~(rdOp s f))
        ∧ t.a = (if f = 2#12 then ~~~s.q
            else if resolve s (f - 1#12) = .reg .l then ~~~(sext16 (ovc (~~~(rdOp s f)))) else ~~~(rdOp s (f - 1#12)))
        ∧ t.q = s.q ∧ SameBanks s t ∧ SameOutside s t ∧ EndsAt s t s.z 3
        ∧ ∀ bank off, eraseRead t bank off =
            if resolve s f = .eras bank off ∨ resolve s (f - 1#12) = .eras bank off then edit bank off (eraseRead s bank off)
            else eraseRead s bank off

/-- TS (R266): with overflow A becomes +1 or -1 and one word is skipped, then the old A is stored to K: 16 bits to A or Q,
else overflow-corrected, edited, and to EB, FB, BB and Z each their own bits; 2 MCT. The order is the spec's decision D21
(log 31). -/
def Obligations.TransferToStorage : Prop :=
  ∀ (k : EAddr) (s : State),
    let loc := resolve s (ea k)
    HasWord (.ts k) false (0o54000#15 + operand10 k)
      ∧ ∃ t, exec (.ts k) s = .next t
        ∧ t.a = storedA (match ovf s.a with | .pos => 0o000001#16 | .neg => 0o177776#16 | .none => s.a) loc s.a
        ∧ t.l = storedL s.l loc s.a ∧ t.q = storedQ s.q loc s.a ∧ StoredBanks s loc s.a t ∧ SameOutside s t
        ∧ EndsAt s t (storedZ (if ovf s.a = .none then s.z else s.z + 1#12) loc s.a) 2

/-- OVSK and TCAA (R267, R268): OVSK skips one word if A holds overflow and leaves A unchanged; TCAA jumps to the low 12 bits
of A, and A becomes +1 or -1 if it held overflow; 2 MCT. -/
def Obligations.OverflowSkipAndJump : Prop :=
  ∀ s : State,
    HasWord .ovsk false 0o54000#15 ∧ HasWord .tcaa false 0o54005#15
      ∧ (∃ t, exec .ovsk s = .next t ∧ t.a = s.a ∧ t.l = s.l ∧ t.q = s.q ∧ RegistersOnly s t
          ∧ EndsAt s t (if ovf s.a = .none then s.z else s.z + 1#12) 2)
      ∧ ∃ t, exec .tcaa s = .next t
          ∧ t.a = (match ovf s.a with | .pos => 0o000001#16 | .neg => 0o177776#16 | .none => s.a)
          ∧ t.l = s.l ∧ t.q = s.q ∧ RegistersOnly s t ∧ EndsAt s t (s.a.setWidth 12) 2

/-- XCH (R269): A takes K's 16-bit value, K takes A as a store does; 2 MCT. -/
def Obligations.ExchangeWithA : Prop :=
  ∀ (k : EAddr) (s : State),
    let loc := resolve s (ea k)
    HasWord (.xch k) false (0o56000#15 + operand10 k)
      ∧ ∃ t, exec (.xch k) s = .next t ∧ t.a = rdOp s (ea k) ∧ t.l = storedL s.l loc s.a ∧ t.q = storedQ s.q loc s.a
        ∧ StoredBanks s loc s.a t ∧ SameOutside s t ∧ EndsAt s t (storedZ s.z loc s.a) 2

/-- LXCH (R270): L takes K's overflow-corrected value, K takes the sign-extended L as a store does; 2 MCT. -/
def Obligations.ExchangeWithL : Prop :=
  ∀ (k : EAddr) (s : State),
    let loc := resolve s (ea k)
    HasWord (.lxch k) false (0o22000#15 + operand10 k)
      ∧ ∃ t, exec (.lxch k) s = .next t ∧ t.l = ovc (rdOp s (ea k)) ∧ t.a = storedA s.a loc (sext16 s.l)
        ∧ t.q = storedQ s.q loc (sext16 s.l) ∧ StoredBanks s loc (sext16 s.l) t ∧ SameOutside s t
        ∧ EndsAt s t (storedZ s.z loc (sext16 s.l)) 2

/-- QXCH (R272): Q takes K's 16-bit value, K takes Q as a store does; 2 MCT. -/
def Obligations.ExchangeWithQ : Prop :=
  ∀ (k : EAddr) (s : State),
    let loc := resolve s (ea k)
    HasWord (.qxch k) true (0o22000#15 + operand10 k)
      ∧ ∃ t, exec (.qxch k) s = .next t ∧ t.q = rdOp s (ea k) ∧ t.a = storedA s.a loc s.q ∧ t.l = storedL s.l loc s.q
        ∧ StoredBanks s loc s.q t ∧ SameOutside s t ∧ EndsAt s t (storedZ s.z loc s.q) 2

/-- ZL and ZQ (R271, R273): L, or Q, becomes 0 and nothing else changes; 2 MCT. -/
def Obligations.ZeroRegisters : Prop :=
  ∀ s : State,
    HasWord .zl false 0o22007#15 ∧ HasWord .zq true 0o22007#15
      ∧ (∃ t, exec .zl s = .next t ∧ t.l = 0#15 ∧ t.a = s.a ∧ t.q = s.q ∧ RegistersOnly s t ∧ EndsAt s t s.z 2)
      ∧ ∃ t, exec .zq s = .next t ∧ t.q = 0#16 ∧ t.a = s.a ∧ t.l = s.l ∧ RegistersOnly s t ∧ EndsAt s t s.z 2

/-- DXCH (R274), for every pair but that of field 0: the state `m` is after the exchange of L with the low word, and A is
exchanged with the high word from there; 3 MCT. For the pair (L, Q), field 2, Q goes to A, A to L, L to Q (the spec's
decision D22, log 24). -/
def Obligations.DoubleExchange : Prop :=
  ∀ (f : EAddr) (s : State), f ≠ 0#10 →
    let lo := resolve s (ea f)
    HasWord (.dxch f) false (0o52000#15 + operand10 f)
      ∧ ∃ t, exec (.dxch f) s = .next t ∧ SameOutside s t
        ∧ (f = 2#10 → t.a = s.q ∧ t.l = ovc s.a ∧ t.q = sext16 s.l ∧ RegistersOnly s t ∧ EndsAt s t s.z 3)
        ∧ (f ≠ 2#10 → ∃ m : State,
            m.l = ovc (rdOp s (ea f)) ∧ m.a = storedA s.a lo (sext16 s.l) ∧ m.q = storedQ s.q lo (sext16 s.l)
              ∧ m.z = storedZ s.z lo (sext16 s.l) ∧ StoredBanks s lo (sext16 s.l) m ∧ SameOutside s m
              ∧ t.a = rdOp m (ea f - 1#12) ∧ t.l = storedL m.l (resolve m (ea f - 1#12)) m.a
              ∧ t.q = storedQ m.q (resolve m (ea f - 1#12)) m.a ∧ StoredBanks m (resolve m (ea f - 1#12)) m.a t
              ∧ EndsAt s t (storedZ m.z (resolve m (ea f - 1#12)) m.a) 3)

/-- DTCF and DTCB (R279, R280): DTCF exchanges A with FB and L with Z; DTCB exchanges A with Z and L with BB. The next
word is fetched from the new Z through the new banks; 3 MCT. -/
def Obligations.DoubleTransfer : Prop :=
  ∀ s : State,
    HasWord .dtcf false 0o52005#15 ∧ HasWord .dtcb false 0o52006#15
      ∧ (∃ t, exec .dtcf s = .next t ∧ t.a = sext16 (fbWord s.fbank) ∧ t.fbank = (ovc s.a).extractLsb' 10 5
          ∧ t.l = zext15 s.z ∧ t.q = s.q ∧ t.ebank = s.ebank ∧ SameErasable s t ∧ SameOutside s t
          ∧ EndsAt s t (s.l.extractLsb' 0 12) 3)
      ∧ ∃ t, exec .dtcb s = .next t ∧ t.a = zext16 s.z ∧ t.l = bbWord s.fbank s.ebank
          ∧ t.fbank = s.l.extractLsb' 10 5 ∧ t.ebank = s.l.extractLsb' 0 3 ∧ t.q = s.q ∧ SameErasable s t
          ∧ SameOutside s t ∧ EndsAt s t ((ovc s.a).extractLsb' 0 12) 3

/-! ### Arithmetic and logic -/

/-- AD (R300): A is the one's-complement sum of A, not corrected, and K's 16-bit value; K is re-edited; 2 MCT. -/
def Obligations.AddToAccumulator : Prop :=
  ∀ (k : Addr) (s : State),
    HasWord (.ad k) false (0o60000#15 + operand12 k)
      ∧ ∃ t, exec (.ad k) s = .next t ∧ t.a = add1c16 s.a (rdOp s k) ∧ t.l = s.l ∧ t.q = s.q ∧ SameBanks s t
        ∧ SameOutside s t ∧ Reedited s (resolve s k) t ∧ EndsAt s t s.z 2

/-- DOUBLE and DDOUBL (R301, R306): A, or the pair A and L, is added to itself; the carry of the low words of DDOUBL goes
into the high sum, which stays uncorrected; 2 and 3 MCT. The word of DDOUBL decodes to DAS with field 1, DAS A, which has
the same effect. -/
def Obligations.Doubling : Prop :=
  ∀ s : State,
    let twice := fun t : State => t.l = ovc (add1c16 (sext16 s.l) (sext16 s.l))
      ∧ t.a = add1c16 (add1c16 s.a s.a) (match ovf (add1c16 (sext16 s.l) (sext16 s.l)) with
          | .pos => 0o000001#16 | .neg => 0o177776#16 | .none => 0o000000#16)
      ∧ t.q = s.q ∧ RegistersOnly s t ∧ EndsAt s t s.z 3
    HasWord .double false 0o60000#15 ∧ HasWord .ddoubl false 0o20001#15 ∧ HasWord (.das 1#10) false 0o20001#15
      ∧ decode false false 0o20001#15 = .das 1#10
      ∧ (∃ t, exec .double s = .next t ∧ t.a = add1c16 s.a s.a ∧ t.l = s.l ∧ t.q = s.q ∧ RegistersOnly s t
          ∧ EndsAt s t s.z 2)
      ∧ (∃ t, exec .ddoubl s = .next t ∧ twice t) ∧ ∃ t, exec (.das 1#10) s = .next t ∧ twice t

/-- ADS (R302): the sum of A and K goes to A uncorrected and to K as a store does; 2 MCT. -/
def Obligations.AddToStorage : Prop :=
  ∀ (k : EAddr) (s : State),
    let loc := resolve s (ea k)
    let sum := add1c16 s.a (rdOp s (ea k))
    HasWord (.ads k) false (0o26000#15 + operand10 k)
      ∧ ∃ t, exec (.ads k) s = .next t ∧ t.a = sum ∧ t.l = storedL s.l loc sum ∧ t.q = storedQ s.q loc sum
        ∧ StoredBanks s loc sum t ∧ SameOutside s t ∧ EndsAt s t (storedZ s.z loc sum) 2

/-- SU (R303): A is the one's-complement sum of A and the complement of K's 16-bit value; K is re-edited; 2 MCT. -/
def Obligations.Subtract : Prop :=
  ∀ (k : EAddr) (s : State),
    HasWord (.su k) true (0o60000#15 + operand10 k)
      ∧ ∃ t, exec (.su k) s = .next t ∧ t.a = add1c16 s.a (~~~(rdOp s (ea k))) ∧ t.l = s.l ∧ t.q = s.q
        ∧ SameBanks s t ∧ SameOutside s t ∧ Reedited s (resolve s (ea k)) t ∧ EndsAt s t s.z 2

/-- MSU (R304): A is the difference of two unsigned values as a one's-complement number, in 16 bits when K is A or Q, else
in 15 bits and sign-extended; K is re-edited; 2 MCT. The conversion is the spec's inference and its decision D24 (log 32). -/
def Obligations.ModularSubtract : Prop :=
  ∀ (k : EAddr) (s : State),
    let d16 := s.a - rdOp s (ea k)
    let d15 := ovc s.a - memRead s (ea k)
    HasWord (.msu k) true (0o20000#15 + operand10 k)
      ∧ ∃ t, exec (.msu k) s = .next t
        ∧ t.a = (if resolve s (ea k) = .reg .a ∨ resolve s (ea k) = .reg .q then
                   (if d16.toNat < 0o100000 then d16 else d16 - 1#16)
                 else sext16 (if d15.toNat < 0o40000 then d15 else d15 - 1#15))
        ∧ t.l = s.l ∧ t.q = s.q ∧ SameBanks s t ∧ SameOutside s t ∧ Reedited s (resolve s (ea k)) t ∧ EndsAt s t s.z 2

/-- DAS (R305, R309), for every pair but those of fields 0 (refused, `StepGoesOn`) and 1 (DAS A, `Doubling`): the sums of the low words and of the high words
with the carry are stored to the pair, the low word first (`m`), then L becomes 0 and A the carry of the high sum; 3 MCT. -/
def Obligations.DoubleAddToStorage : Prop :=
  ∀ (f : EAddr) (s : State), f ≠ 0#10 → f ≠ 1#10 →
    let lo := add1c16 (sext16 s.l) (rdOp s (ea f))
    let hi := add1c16 (add1c16 s.a (rdOp s (ea f - 1#12)))
      (match ovf lo with | .pos => 0o000001#16 | .neg => 0o177776#16 | .none => 0o000000#16)
    HasWord (.das f) false (0o20000#15 + operand10 f)
      ∧ ∃ t, exec (.das f) s = .next t ∧ t.l = 0#15
        ∧ t.a = (match ovf hi with | .pos => 0o000001#16 | .neg => 0o177776#16 | .none => 0o000000#16)
        ∧ SameOutside s t
        ∧ ∃ m : State, StoredBanks s (resolve s (ea f)) lo m ∧ m.sbank = s.sbank
          ∧ m.q = storedQ s.q (resolve s (ea f)) lo ∧ m.z = storedZ s.z (resolve s (ea f)) lo
          ∧ t.q = storedQ m.q (resolve m (ea f - 1#12)) hi ∧ StoredBanks m (resolve m (ea f - 1#12)) hi t
          ∧ EndsAt s t (storedZ m.z (resolve m (ea f - 1#12)) hi) 3

/-- INCR and AUG (R307, R308, R203): K is stored with 1 added, or for AUG of a negative value 1 taken away; an overflow of
TIME1 requests a PINC of TIME2, one of TIME3 to TIME6 raises its interrupt; 2 MCT. That a negative overflow has the same
effect is the spec's decision D23 (log 30). -/
def Obligations.IncrementAndAugment : Prop :=
  ∀ (k : EAddr) (s : State),
    let loc := resolve s (ea k)
    let v := rdOp s (ea k)
    let post := fun (sum : Acc) (t : State) =>
      t.a = storedA s.a loc sum ∧ t.l = storedL s.l loc sum ∧ t.q = storedQ s.q loc sum ∧ StoredBanks s loc sum t
        ∧ SameHidden s t ∧ SameChannels s t ∧ EndsAt s t (storedZ s.z loc sum) 2
        ∧ t.pending = (if ovf sum ≠ .none ∧ loc = .eras 0#3 0o25#8 then s.pending ++ [.pinc .time2] else s.pending)
        ∧ t.ruptReq = (if ovf sum ≠ .none then
            (if loc = .eras 0#3 0o26#8 then s.ruptReq.put .t3rupt true
             else if loc = .eras 0#3 0o27#8 then s.ruptReq.put .t4rupt true
             else if loc = .eras 0#3 0o30#8 then s.ruptReq.put .t5rupt true
             else if loc = .eras 0#3 0o31#8 then s.ruptReq.put .t6rupt true
             else s.ruptReq)
            else s.ruptReq)
    HasWord (.incr k) false (0o24000#15 + operand10 k) ∧ HasWord (.aug k) true (0o24000#15 + operand10 k)
      ∧ (∃ t, exec (.incr k) s = .next t ∧ post (add1c16 v 0o000001#16) t)
      ∧ ∃ t, exec (.aug k) s = .next t
          ∧ post (add1c16 v (if v.toNat < 0o100000 then 0o000001#16 else 0o177776#16)) t

/-- DIM (R310): K is stored one step nearer to zero, +0 and -0 as they are; no counter has a side effect; 2 MCT. -/
def Obligations.Diminish : Prop :=
  ∀ (k : EAddr) (s : State),
    let loc := resolve s (ea k)
    let v := rdOp s (ea k)
    let r := if v = 0o000000#16 ∨ v = 0o177777#16 then v
      else add1c16 v (if v.toNat < 0o100000 then 0o177776#16 else 0o000001#16)
    HasWord (.dim k) true (0o26000#15 + operand10 k)
      ∧ ∃ t, exec (.dim k) s = .next t ∧ t.a = storedA s.a loc r ∧ t.l = storedL s.l loc r ∧ t.q = storedQ s.q loc r
        ∧ StoredBanks s loc r t ∧ SameOutside s t ∧ EndsAt s t (storedZ s.z loc r) 2

/-- MP and SQUARE (R311, R312): A and L hold the double-precision product of the overflow-corrected factors, with agreeing
signs, and a zero product is -0 exactly when A is zero and K a nonzero number of the opposite sign, else +0; K is not
re-written; 3 MCT. With overflow in A, MP A and SQUARE run on and leave A and L free (93_implementation_defined.md U8,
log 6). That MP corrects Q is the spec's decision D9 (log 23). -/
def Obligations.Multiply : Prop :=
  ∀ (k : Addr) (s : State),
    let frame := fun t : State => t.q = s.q ∧ SameBanks s t ∧ SameErasable s t ∧ SameRequests s t ∧ SameChannels s t
      ∧ t.inh = s.inh ∧ t.isr = s.isr ∧ t.rope = s.rope ∧ t.inputChans = s.inputChans ∧ t.env = s.env ∧ EndsAt s t s.z 3
    let product := fun (x y : Word) (t : State) => ∃ hi : Word,
      t.a = sext16 hi ∧ val2 hi t.l = val x * val y ∧ hi.getLsbD 14 = t.l.getLsbD 14
        ∧ (val x * val y = 0 →
            hi = (if x = 0o00000#15 ∧ val y < 0 ∨ x = 0o77777#15 ∧ 0 < val y then 0o77777#15 else 0o00000#15))
    HasWord (.mp k) true (0o70000#15 + operand12 k) ∧ HasWord .square true 0o70000#15
      ∧ (∃ t, exec (.mp k) s = .next t ∧ frame t
          ∧ (¬(k = 0#12 ∧ ovf s.a ≠ .none) → product (ovc s.a) (ovc (rdOp s k)) t ∧ t.freeCount = s.freeCount))
      ∧ ∃ t, exec .square s = .next t ∧ frame t
          ∧ (ovf s.a = .none → product (ovc s.a) (ovc s.a) t ∧ t.freeCount = s.freeCount)

/-- DV (R313): with D the dividend of A and L and d the divisor, both overflow-corrected: a divisor larger than the dividend
as fractions gives the quotient in A and the remainder in L, with the signs of R313; equal magnitudes, and zero by zero,
give 0o37777 with the sign of the quotient in A; zero by nonzero gives 0; L is then the high dividend word, or unchanged.
A divisor that is too small leaves A and L free and the instruction still completes (the spec's decision D11, U2, log 5).
K is not re-written; 6 MCT. That equality means |D| = 2^14 |d| is the spec's inference. -/
def Obligations.Divide : Prop :=
  ∀ (k : EAddr) (s : State),
    let a := ovc s.a
    let d := val (ovc (rdOp s (ea k)))
    let D := val2 a s.l
    let sD := if a = 0o00000#15 ∨ a = 0o77777#15 then s.l.getLsbD 14 else a.getLsbD 14
    let sq := sD.xor ((ovc (rdOp s (ea k))).getLsbD 14)
    HasWord (.dv k) true (0o10000#15 + operand10 k)
      ∧ ∃ t, exec (.dv k) s = .next t ∧ t.q = s.q ∧ SameBanks s t ∧ SameErasable s t ∧ SameRequests s t
        ∧ SameChannels s t ∧ t.inh = s.inh ∧ t.isr = s.isr ∧ t.rope = s.rope ∧ t.inputChans = s.inputChans
        ∧ t.env = s.env ∧ EndsAt s t s.z 6
        ∧ (D = 0 → d ≠ 0 → t.a = (if sq then 0o177777#16 else 0o000000#16) ∧ t.l = s.l)
        ∧ (D = 0 → d = 0 → t.a = (if sq then 0o140000#16 else 0o037777#16) ∧ t.l = s.l)
        ∧ (D ≠ 0 → D.natAbs = 2 ^ 14 * d.natAbs → t.a = (if sq then 0o140000#16 else 0o037777#16) ∧ t.l = a)
        ∧ (D ≠ 0 → D.natAbs < 2 ^ 14 * d.natAbs → ∃ quot : Word, t.a = sext16 quot ∧ val quot * d + val t.l = D
            ∧ (val t.l).natAbs < d.natAbs ∧ quot.getLsbD 14 = sq ∧ t.l.getLsbD 14 = sD)

/-- MASK and MSK (R315): A is the AND of A and K, in 16 bits when K is A or Q, else of the overflow-corrected A and the word,
sign-extended; K is not re-written; 2 MCT. -/
def Obligations.MaskA : Prop :=
  ∀ (k : Addr) (s : State),
    let post := fun t : State =>
      t.a = (if resolve s k = .reg .a then s.a
             else if resolve s k = .reg .q then s.a &&& s.q
             else sext16 (ovc s.a &&& memRead s k))
        ∧ t.l = s.l ∧ t.q = s.q ∧ RegistersOnly s t ∧ EndsAt s t s.z 2
    HasWord (.mask k) false (0o70000#15 + operand12 k) ∧ HasWord (.msk k) false (0o70000#15 + operand12 k)
      ∧ (∃ t, exec (.mask k) s = .next t ∧ post t) ∧ ∃ t, exec (.msk k) s = .next t ∧ post t

/-! ### Channels -/

/-- READ, RAND, ROR and RXOR (R341, R343, R345, R347): A takes the channel, or its AND, OR or exclusive OR with A: all 16
bits with channel 2, else the overflow-corrected A and the channel's word, sign-extended. No channel changes; 2 MCT. -/
def Obligations.ChannelReads : Prop :=
  ∀ (c : ChanNo) (s : State),
    let post := fun (r : Acc) (t : State) => t.a = r ∧ t.l = s.l ∧ t.q = s.q ∧ RegistersOnly s t ∧ EndsAt s t s.z 2
    let w := ovc (chanRead s c)
    HasWord (.read c) true (operand9 c) ∧ HasWord (.rand c) true (0o02000#15 + operand9 c)
      ∧ HasWord (.ror c) true (0o04000#15 + operand9 c) ∧ HasWord (.rxor c) true (0o06000#15 + operand9 c)
      ∧ (∃ t, exec (.read c) s = .next t ∧ post (chanRead s c) t)
      ∧ (∃ t, exec (.rand c) s = .next t ∧ post (if c = 2#9 then s.a &&& s.q else sext16 (ovc s.a &&& w)) t)
      ∧ (∃ t, exec (.ror c) s = .next t ∧ post (if c = 2#9 then s.a ||| s.q else sext16 (ovc s.a ||| w)) t)
      ∧ ∃ t, exec (.rxor c) s = .next t ∧ post (if c = 2#9 then s.a ^^^ s.q else sext16 (ovc s.a ^^^ w)) t

/-- WRITE, WAND and WOR (R342, R344, R346): the channel takes A, or its AND or OR with A, which A takes too: 16 bits for
channel 2, bits 7 to 5 for channel 7, else the overflow-corrected word; no other channel changes; 2 MCT. The environment
observes the write (R551 (4)): that it does so for channels 1, 2 and 7 too, and that it sees the value the channel takes, is
the model's choice (log 18, DESIGN CHOICE). That an input channel keeps what it presents is the spec's ChannelEnv (D18);
which channels are inputs is the model's choice (log 11), but for 3, 4, 0o31 and 0o32, which always are (R550), and the
registers and output channels, which never are. -/
def Obligations.ChannelWrites : Prop :=
  ∀ (c : ChanNo) (s : State),
    let w := ovc (chanRead s c)
    let post := fun (r : Acc) (t : State) =>
      t.l = (if c = 1#9 then ovc r else s.l) ∧ t.q = (if c = 2#9 then r else s.q)
        ∧ chanRead t c = (if c = 2#9 then r else if c = 7#9 then r &&& 0o000160#16
            else if c ∈ [3#9, 4#9, 0o31#9, 0o32#9]
              ∨ c ∈ s.inputChans ∧ c ∉ [1#9, 2#9, 5#9, 6#9, 7#9, 0o13#9, 0o14#9, 0o34#9, 0o35#9]
            then chanRead s c
            else sext16 (ovc r))
        ∧ (∀ d, d ≠ c → chanRead t d = chanRead s d)
        ∧ t.observed = .chanWrite c (if c = 2#9 then r else if c = 7#9 then r &&& 0o000160#16 else sext16 (ovc r)) :: s.observed
        ∧ SameBanks s t ∧ SameErasable s t ∧ SameRequests s t ∧ SameHidden s t ∧ EndsAt s t s.z 2
    let rAnd := if c = 2#9 then s.a &&& s.q else sext16 (ovc s.a &&& w)
    let rOr := if c = 2#9 then s.a ||| s.q else sext16 (ovc s.a ||| w)
    HasWord (.write c) true (0o01000#15 + operand9 c) ∧ HasWord (.wand c) true (0o03000#15 + operand9 c)
      ∧ HasWord (.wor c) true (0o05000#15 + operand9 c)
      ∧ (∃ t, exec (.write c) s = .next t ∧ t.a = s.a ∧ post s.a t)
      ∧ (∃ t, exec (.wand c) s = .next t ∧ t.a = rAnd ∧ post rAnd t)
      ∧ ∃ t, exec (.wor c) s = .next t ∧ t.a = rOr ∧ post rOr t

/-! ### Special control -/

/-- EXTEND, INHINT and RELINT (R360 to R362): EXT is set; INH is set; INH is cleared; 1 MCT, and nothing else changes. -/
def Obligations.FlagInstructions : Prop :=
  ∀ s : State,
    let post := fun (ext inh : Bool) (t : State) => t.ext = ext ∧ t.inh = inh ∧ t.a = s.a ∧ t.l = s.l ∧ t.q = s.q
      ∧ SameBanks s t ∧ SameErasable s t ∧ SameRequests s t ∧ SameChannels s t ∧ t.isr = s.isr ∧ t.rope = s.rope
      ∧ t.inputChans = s.inputChans ∧ t.env = s.env ∧ t.freeCount = s.freeCount ∧ NextAt t s.z ∧ Took s t 1
    HasWord .extend false 0o00006#15 ∧ HasWord .inhint false 0o00004#15 ∧ HasWord .relint false 0o00003#15
      ∧ (∃ t, exec .extend s = .next t ∧ post true s.inh t) ∧ (∃ t, exec .inhint s = .next t ∧ post false true t)
      ∧ ∃ t, exec .relint s = .next t ∧ post false false t

/-- INDEX and NDX, basic and extracode (R363): B is the following word, read after the re-write of K, plus the
overflow-corrected K, in one's complement and overflow-corrected; BLIT is 1, EXT stays, Z moves past the following word;
2 MCT. The width of the sum is the spec's decision D7 (log 22). -/
def Obligations.IndexNextInstruction : Prop :=
  ∀ s : State,
    let post := fun (k : Addr) (t : State) =>
      t.b = ovc (add1c16 (sext16 (fetchWord (reWrite s k) s.z)) (sext16 (ovc (rdOp s k)))) ∧ t.z = s.z + 1#12
        ∧ t.blit = true ∧ t.ext = s.ext ∧ t.a = s.a ∧ t.l = s.l ∧ t.q = s.q ∧ SameBanks s t ∧ SameOutside s t
        ∧ Reedited s (resolve s k) t ∧ Took s t 2
    (∀ k : EAddr, HasWord (.index k) false (0o50000#15 + operand10 k) ∧ HasWord (.ndx k) false (0o50000#15 + operand10 k)
        ∧ (∃ t, exec (.index k) s = .next t ∧ post (ea k) t) ∧ ∃ t, exec (.ndx k) s = .next t ∧ post (ea k) t)
      ∧ ∀ k : Addr, HasWord (.indexExt k) true (0o50000#15 + operand12 k)
          ∧ HasWord (.ndxExt k) true (0o50000#15 + operand12 k)
          ∧ (∃ t, exec (.indexExt k) s = .next t ∧ post k t) ∧ ∃ t, exec (.ndxExt k) s = .next t ∧ post k t

/-- RESUME (R364): Z takes the low 12 bits of ZRUPT, B takes BRUPT, ISR is cleared; 2 MCT; nothing else changes, INH and the
latches included. That B is then decoded with BLIT = 0 is the spec's decision D7 (log 22). -/
def Obligations.ResumeInterrupted : Prop :=
  ∀ s : State,
    HasWord .resume false 0o50017#15
      ∧ ∃ t, exec .resume s = .next t ∧ t.b = eraseRead s 0#3 0o17#8 ∧ t.z = (eraseRead s 0#3 0o15#8).extractLsb' 0 12
        ∧ t.isr = false ∧ t.blit = false ∧ t.ext = false ∧ t.a = s.a ∧ t.l = s.l ∧ t.q = s.q ∧ SameBanks s t
        ∧ SameErasable s t ∧ SameRequests s t ∧ SameChannels s t ∧ t.inh = s.inh ∧ t.rope = s.rope
        ∧ t.inputChans = s.inputChans ∧ t.env = s.env ∧ t.freeCount = s.freeCount ∧ Took s t 2

/-- EDRUPT (R365): ISR is set, ZRUPT takes Z, B takes the overflow-corrected A, Z becomes 1; 3 MCT; BRUPT, INH, the latches
and everything else are unchanged, whatever the operand. This reading is the spec's decision D15 (log 28). -/
def Obligations.ProgrammedInterrupt : Prop :=
  ∀ (c : ChanNo) (s : State),
    HasWord (.edrupt c) true (0o07000#15 + operand9 c)
      ∧ ∃ t, exec (.edrupt c) s = .next t ∧ t.isr = true ∧ HoldsNext t (ovc s.a) 0#12 ∧ t.ext = false
        ∧ StoredWord s (.eras 0#3 0o15#8) (zext15 s.z) t ∧ t.a = s.a ∧ t.l = s.l ∧ t.q = s.q ∧ SameBanks s t
        ∧ SameRequests s t ∧ SameChannels s t ∧ t.inh = s.inh ∧ t.rope = s.rope ∧ t.inputChans = s.inputChans
        ∧ t.env = s.env ∧ t.freeCount = s.freeCount ∧ Took s t 3
end

