-- ==== Sys2Proof/Laws/Bits.lean ====
section
/-! SUPPORT. The number formats as arithmetic on the unsigned values of words, so that `omega` decides what is left. -/

namespace Sys2Proof.Machine

theorem bit14_iff (w : Word) : w.getLsbD 14 = true ↔ 0o40000 ≤ w.toNat := by
  have := w.isLt
  rw [BitVec.getLsbD, Nat.testBit_eq_decide_div_mod_eq]
  simp; omega

theorem bit15_iff (v : Acc) : v.getLsbD 15 = true ↔ 0o100000 ≤ v.toNat := by
  have := v.isLt
  rw [BitVec.getLsbD, Nat.testBit_eq_decide_div_mod_eq]
  simp; omega

theorem bit14_acc_iff (v : Acc) : v.getLsbD 14 = true ↔ 0o40000 ≤ v.toNat % 0o100000 := by
  have := v.isLt
  rw [BitVec.getLsbD, Nat.testBit_eq_decide_div_mod_eq]
  simp; omega

theorem ovf_none_iff (v : Acc) : ovf v = .none ↔ v.toNat < 0o40000 ∨ 0o140000 ≤ v.toNat := by
  have h := v.isLt
  have h1 := bit15_iff v
  have h2 := bit14_acc_iff v
  unfold ovf
  cases h3 : v.getLsbD 15 <;> cases h4 : v.getLsbD 14 <;> simp_all <;> omega

theorem ovf_pos_iff (v : Acc) : ovf v = .pos ↔ 0o40000 ≤ v.toNat ∧ v.toNat < 0o100000 := by
  have h := v.isLt
  have h1 := bit15_iff v
  have h2 := bit14_acc_iff v
  unfold ovf
  cases h3 : v.getLsbD 15 <;> cases h4 : v.getLsbD 14 <;> simp_all <;> omega

theorem ovf_neg_iff (v : Acc) : ovf v = .neg ↔ 0o100000 ≤ v.toNat ∧ v.toNat < 0o140000 := by
  have h := v.isLt
  have h1 := bit15_iff v
  have h2 := bit14_acc_iff v
  unfold ovf
  cases h3 : v.getLsbD 15 <;> cases h4 : v.getLsbD 14 <;> simp_all <;> omega

theorem ovc_toNat (v : Acc) : (ovc v).toNat = v.toNat % 0o40000 + v.toNat / 0o100000 * 0o40000 := by
  have h := v.isLt
  have hb : v.toNat % 2 ^ 14 < 2 ^ 14 := Nat.mod_lt _ (by decide)
  simp only [ovc, BitVec.toNat_append, BitVec.extractLsb'_toNat, Nat.shiftRight_zero]
  rw [← Nat.shiftLeft_add_eq_or_of_lt hb]
  simp only [Nat.shiftLeft_eq, Nat.shiftRight_eq_div_pow]
  omega

theorem sext16_toNat (w : Word) : (sext16 w).toNat = w.toNat + w.toNat / 0o40000 * 0o100000 := by
  have h := w.isLt
  simp only [sext16, BitVec.toNat_append, BitVec.extractLsb'_toNat]
  rw [← Nat.shiftLeft_add_eq_or_of_lt h]
  simp only [Nat.shiftLeft_eq, Nat.shiftRight_eq_div_pow]
  omega

@[simp] theorem zext16_toNat (z : Addr) : (zext16 z).toNat = z.toNat := by
  have h := z.isLt
  simp only [zext16, BitVec.toNat_setWidth]; omega

@[simp] theorem zext15_toNat (z : Addr) : (zext15 z).toNat = z.toNat := by
  have h := z.isLt
  simp only [zext15, BitVec.toNat_setWidth]; omega

@[simp] theorem ea_toNat (k : EAddr) : (ea k).toNat = k.toNat := by
  have h := k.isLt
  simp only [ea, BitVec.toNat_setWidth]; omega

/-- Overflow correction undoes sign extension (R195). -/
@[simp] theorem ovc_sext16 (w : Word) : ovc (sext16 w) = w := by
  have h := w.isLt
  apply BitVec.eq_of_toNat_eq
  rw [ovc_toNat, sext16_toNat]; omega

/-- Without overflow, sign extension undoes overflow correction. -/
theorem sext16_ovc {v : Acc} (h : ovf v = .none) : sext16 (ovc v) = v := by
  have hv := v.isLt
  rw [ovf_none_iff] at h
  apply BitVec.eq_of_toNat_eq
  rw [sext16_toNat, ovc_toNat]; omega

/-- A sign-extended word has no overflow (R195). -/
@[simp] theorem ovf_sext16 (w : Word) : ovf (sext16 w) = .none := by
  have h := w.isLt
  rw [ovf_none_iff, sext16_toNat]; omega

theorem add1c16_toNat (x y : Acc) : (add1c16 x y).toNat =
    if 0o177777 < x.toNat + y.toNat then x.toNat + y.toNat - 0o177777 else x.toNat + y.toNat := by
  have hx := x.isLt
  have hy := y.isLt
  unfold add1c16
  by_cases h : 0o177777 < x.toNat + y.toNat
  · simp only [h, if_true, BitVec.toNat_ofNat]; omega
  · simp only [h, if_false, BitVec.toNat_ofNat]; omega

theorem add1c15_toNat (x y : Word) : (add1c15 x y).toNat =
    if 0o77777 < x.toNat + y.toNat then x.toNat + y.toNat - 0o77777 else x.toNat + y.toNat := by
  have hx := x.isLt
  have hy := y.isLt
  unfold add1c15
  by_cases h : 0o77777 < x.toNat + y.toNat
  · simp only [h, if_true, BitVec.toNat_ofNat]; omega
  · simp only [h, if_false, BitVec.toNat_ofNat]; omega

theorem magnitude_eq (w : Word) : magnitude w = w.toNat % 0o40000 := by
  simp [magnitude]

theorem val_eq (w : Word) : val w = if w.toNat < 0o40000 then (w.toNat : Int) else (w.toNat : Int) - 0o77777 := by
  have h := w.isLt
  have h1 := bit14_iff w
  unfold val
  rw [magnitude_eq, magnitude_eq, BitVec.toNat_not]
  by_cases hw : w.toNat < 0o40000
  · have : w.getLsbD 14 = false := by rw [← Bool.not_eq_true, h1]; omega
    simp only [this, hw, if_true, Bool.false_eq_true, if_false]; omega
  · have : w.getLsbD 14 = true := by rw [h1]; omega
    simp only [this, hw, if_true, if_false]; omega

theorem signedWord_toNat (negative : Bool) {m : Nat} (h : m < 0o40000) :
    (signedWord negative m).toNat = if negative then 0o77777 - m else m := by
  have hb : m % 2 ^ 14 < 2 ^ 14 := Nat.mod_lt _ (by decide)
  have hw : (0#1 ++ BitVec.ofNat 14 m : Word).toNat = m := by
    simp only [BitVec.toNat_append, BitVec.toNat_ofNat]
    rw [← Nat.shiftLeft_add_eq_or_of_lt hb]
    simp only [Nat.shiftLeft_eq]
    omega
  unfold signedWord
  cases negative
  · simp only [Bool.false_eq_true, if_false]; exact hw
  · simp only [if_true, BitVec.toNat_not]
    rw [hw]

theorem isZero16_iff (v : Acc) : isZero16 v = true ↔ v = 0o000000#16 ∨ v = 0o177777#16 := by
  simp [isZero16]

theorem isZero15_iff (w : Word) : isZero15 w = true ↔ w = 0o00000#15 ∨ w = 0o77777#15 := by
  simp [isZero15]

end Sys2Proof.Machine
end

