-- ==== Sys2Proof/Laws/Memory.lean ====
section
/-! SUPPORT. The laws of a sparse memory: a read after a write, and the canonical form. -/

namespace Sys2Proof.Machine

theorem Memory.read_erase (m : Memory) (k j : Nat) : (m.erase k).read j = if k = j then 0#15 else m.read j := by
  induction m with
  | nil => simp [Memory.erase, Memory.read]
  | cons p rest ih =>
    obtain ⟨x, w⟩ := p
    by_cases hx : x = k
    · subst hx
      by_cases hj : x = j
      · subst hj; simpa [Memory.erase] using ih
      · simp [Memory.erase, Memory.read, hj, ih]
    · by_cases hj : x = j
      · subst hj; simp [Memory.erase, Memory.read, hx, Ne.symm hx]
      · simp [Memory.erase, Memory.read, hx, hj, ih]

theorem Memory.read_insert (m : Memory) (k : Nat) (w : Word) (j : Nat)
    (hk : ∀ p ∈ m, p.1 ≠ k) : (m.insert k w).read j = if k = j then w else m.read j := by
  induction m with
  | nil => simp [Memory.insert, Memory.read]
  | cons p rest ih =>
    obtain ⟨x, v⟩ := p
    have hx : x ≠ k := hk (x, v) (by simp)
    have ih' := ih (fun p hp => hk p (by simp [hp]))
    by_cases hlt : k < x
    · simp [Memory.insert, Memory.read, hlt]
    · by_cases hj : x = j
      · subst hj; simp [Memory.insert, Memory.read, hlt, Ne.symm hx]
      · simp [Memory.insert, Memory.read, hlt, hj, ih']

theorem Memory.mem_erase {m : Memory} {k : Nat} {p : Nat × Word} (h : p ∈ m.erase k) : p ∈ m ∧ p.1 ≠ k := by
  induction m with
  | nil => simp [Memory.erase] at h
  | cons q rest ih =>
    obtain ⟨x, w⟩ := q
    by_cases hx : x = k
    · simp only [Memory.erase, hx, if_true] at h
      exact ⟨by simp [ih h], (ih h).2⟩
    · simp only [Memory.erase, hx, if_false, List.mem_cons] at h
      rcases h with h | h
      · subst h; simp [hx]
      · exact ⟨by simp [ih h], (ih h).2⟩

/-- A read after a write: the written key reads as what was written, every other key as before. -/
@[simp] theorem Memory.read_write (m : Memory) (k : Nat) (w : Word) (j : Nat) :
    (m.write k w).read j = if k = j then w else m.read j := by
  unfold Memory.write
  by_cases hw : w = 0#15
  · simp [hw, Memory.read_erase]
  · simp only [hw, if_false]
    rw [Memory.read_insert _ _ _ _ (fun p hp => (Memory.mem_erase hp).2), Memory.read_erase]
    by_cases hj : k = j <;> simp [hj]

theorem Memory.wf_weaken {m : Memory} {lo lo' hi : Nat} (h : Memory.wf lo hi m = true) (hl : lo' ≤ lo) :
    Memory.wf lo' hi m = true := by
  cases m with
  | nil => rfl
  | cons p rest =>
    obtain ⟨x, w⟩ := p
    simp only [Memory.wf, Bool.and_eq_true, decide_eq_true_eq] at h ⊢
    exact ⟨⟨⟨by omega, h.1.1.2⟩, h.1.2⟩, h.2⟩

theorem Memory.wf_erase {m : Memory} {lo hi : Nat} (h : Memory.wf lo hi m = true) (k : Nat) :
    Memory.wf lo hi (m.erase k) = true := by
  induction m generalizing lo with
  | nil => rfl
  | cons p rest ih =>
    obtain ⟨x, w⟩ := p
    simp only [Memory.wf, Bool.and_eq_true, decide_eq_true_eq] at h
    by_cases hx : x = k
    · simpa [Memory.erase, hx] using Memory.wf_weaken (ih h.2) (by omega)
    · simpa [Memory.erase, hx, Memory.wf] using ⟨⟨h.1.1, by simpa using h.1.2⟩, ih h.2⟩

theorem Memory.wf_insert {m : Memory} {lo hi k : Nat} {w : Word} (h : Memory.wf lo hi m = true)
    (hk : ∀ p ∈ m, p.1 ≠ k) (h1 : lo ≤ k) (h2 : k < hi) (hw : w ≠ 0#15) : Memory.wf lo hi (m.insert k w) = true := by
  induction m generalizing lo with
  | nil => simp [Memory.insert, Memory.wf, h1, h2, hw]
  | cons p rest ih =>
    obtain ⟨x, v⟩ := p
    have hx : x ≠ k := hk (x, v) (by simp)
    simp only [Memory.wf, Bool.and_eq_true, decide_eq_true_eq] at h
    by_cases hlt : k < x
    · simp only [Memory.insert, hlt, if_true, Memory.wf, Bool.and_eq_true, decide_eq_true_eq]
      exact ⟨⟨⟨h1, h2⟩, by simpa using hw⟩, ⟨⟨by omega, h.1.1.2⟩, h.1.2⟩, h.2⟩
    · simp only [Memory.insert, hlt, if_false, Memory.wf, Bool.and_eq_true, decide_eq_true_eq]
      exact ⟨h.1, ih h.2 (fun p hp => hk p (by simp [hp])) (by omega)⟩

/-- Every memory operation keeps the canonical form. -/
theorem Memory.wf_write {m : Memory} {lo hi k : Nat} (h : Memory.wf lo hi m = true) (h1 : lo ≤ k) (h2 : k < hi)
    (w : Word) : Memory.wf lo hi (m.write k w) = true := by
  unfold Memory.write
  by_cases hw : w = 0#15
  · simpa [hw] using Memory.wf_erase h k
  · simpa [hw] using
      Memory.wf_insert (Memory.wf_erase h k) (fun p hp => (Memory.mem_erase hp).2) h1 h2 hw

theorem Memory.mem_insert {m : Memory} {k : Nat} {w : Word} {p : Nat × Word} (h : p ∈ m.insert k w) :
    p = (k, w) ∨ p ∈ m := by
  induction m with
  | nil => simpa [Memory.insert] using h
  | cons q rest ih =>
    obtain ⟨x, v⟩ := q
    by_cases hlt : k < x
    · simpa [Memory.insert, hlt] using h
    · simp only [Memory.insert, hlt, if_false, List.mem_cons] at h
      rcases h with h | h
      · simp [h]
      · rcases ih h with h | h <;> simp [h]

/-- A write lists no key that was not listed, but the written one. -/
theorem Memory.mem_write {m : Memory} {k : Nat} {w : Word} {p : Nat × Word} (h : p ∈ m.write k w) :
    p.1 = k ∨ p ∈ m := by
  unfold Memory.write at h
  by_cases hw : w = 0#15
  · simp only [hw, if_true] at h
    exact .inr (Memory.mem_erase h).1
  · simp only [hw, if_false] at h
    rcases Memory.mem_insert h with h | h
    · exact .inl (by simp [h])
    · exact .inr (Memory.mem_erase h).1

end Sys2Proof.Machine
end

