-- ==== Sys2Proof/Laws/State.lean ====
section
/-! SUPPORT. What each field reads after each named update of the state: one lemma per field per update. -/

namespace Sys2Proof.Machine

variable (s : State)

@[simp] theorem State.setA_a (v : Acc) : (s.setA v).a = v := rfl
@[simp] theorem State.setA_l (v : Acc) : (s.setA v).l = s.l := rfl
@[simp] theorem State.setA_q (v : Acc) : (s.setA v).q = s.q := rfl
@[simp] theorem State.setA_ebank (v : Acc) : (s.setA v).ebank = s.ebank := rfl
@[simp] theorem State.setA_fbank (v : Acc) : (s.setA v).fbank = s.fbank := rfl
@[simp] theorem State.setA_z (v : Acc) : (s.setA v).z = s.z := rfl
@[simp] theorem State.setA_b (v : Acc) : (s.setA v).b = s.b := rfl
@[simp] theorem State.setA_blit (v : Acc) : (s.setA v).blit = s.blit := rfl
@[simp] theorem State.setA_ext (v : Acc) : (s.setA v).ext = s.ext := rfl
@[simp] theorem State.setA_inh (v : Acc) : (s.setA v).inh = s.inh := rfl
@[simp] theorem State.setA_isr (v : Acc) : (s.setA v).isr = s.isr := rfl
@[simp] theorem State.setA_ruptReq (v : Acc) : (s.setA v).ruptReq = s.ruptReq := rfl
@[simp] theorem State.setA_sbank (v : Acc) : (s.setA v).sbank = s.sbank := rfl
@[simp] theorem State.setA_erasable (v : Acc) : (s.setA v).erasable = s.erasable := rfl
@[simp] theorem State.setA_rope (v : Acc) : (s.setA v).rope = s.rope := rfl
@[simp] theorem State.setA_chan (v : Acc) : (s.setA v).chan = s.chan := rfl
@[simp] theorem State.setA_pending (v : Acc) : (s.setA v).pending = s.pending := rfl
@[simp] theorem State.setA_inputChans (v : Acc) : (s.setA v).inputChans = s.inputChans := rfl
@[simp] theorem State.setA_env (v : Acc) : (s.setA v).env = s.env := rfl
@[simp] theorem State.setA_observed (v : Acc) : (s.setA v).observed = s.observed := rfl
@[simp] theorem State.setA_mct (v : Acc) : (s.setA v).mct = s.mct := rfl
@[simp] theorem State.setA_freeCount (v : Acc) : (s.setA v).freeCount = s.freeCount := rfl

@[simp] theorem State.setL_a (v : Word) : (s.setL v).a = s.a := rfl
@[simp] theorem State.setL_l (v : Word) : (s.setL v).l = v := rfl
@[simp] theorem State.setL_q (v : Word) : (s.setL v).q = s.q := rfl
@[simp] theorem State.setL_ebank (v : Word) : (s.setL v).ebank = s.ebank := rfl
@[simp] theorem State.setL_fbank (v : Word) : (s.setL v).fbank = s.fbank := rfl
@[simp] theorem State.setL_z (v : Word) : (s.setL v).z = s.z := rfl
@[simp] theorem State.setL_b (v : Word) : (s.setL v).b = s.b := rfl
@[simp] theorem State.setL_blit (v : Word) : (s.setL v).blit = s.blit := rfl
@[simp] theorem State.setL_ext (v : Word) : (s.setL v).ext = s.ext := rfl
@[simp] theorem State.setL_inh (v : Word) : (s.setL v).inh = s.inh := rfl
@[simp] theorem State.setL_isr (v : Word) : (s.setL v).isr = s.isr := rfl
@[simp] theorem State.setL_ruptReq (v : Word) : (s.setL v).ruptReq = s.ruptReq := rfl
@[simp] theorem State.setL_sbank (v : Word) : (s.setL v).sbank = s.sbank := rfl
@[simp] theorem State.setL_erasable (v : Word) : (s.setL v).erasable = s.erasable := rfl
@[simp] theorem State.setL_rope (v : Word) : (s.setL v).rope = s.rope := rfl
@[simp] theorem State.setL_chan (v : Word) : (s.setL v).chan = s.chan := rfl
@[simp] theorem State.setL_pending (v : Word) : (s.setL v).pending = s.pending := rfl
@[simp] theorem State.setL_inputChans (v : Word) : (s.setL v).inputChans = s.inputChans := rfl
@[simp] theorem State.setL_env (v : Word) : (s.setL v).env = s.env := rfl
@[simp] theorem State.setL_observed (v : Word) : (s.setL v).observed = s.observed := rfl
@[simp] theorem State.setL_mct (v : Word) : (s.setL v).mct = s.mct := rfl
@[simp] theorem State.setL_freeCount (v : Word) : (s.setL v).freeCount = s.freeCount := rfl

@[simp] theorem State.setQ_a (v : Acc) : (s.setQ v).a = s.a := rfl
@[simp] theorem State.setQ_l (v : Acc) : (s.setQ v).l = s.l := rfl
@[simp] theorem State.setQ_q (v : Acc) : (s.setQ v).q = v := rfl
@[simp] theorem State.setQ_ebank (v : Acc) : (s.setQ v).ebank = s.ebank := rfl
@[simp] theorem State.setQ_fbank (v : Acc) : (s.setQ v).fbank = s.fbank := rfl
@[simp] theorem State.setQ_z (v : Acc) : (s.setQ v).z = s.z := rfl
@[simp] theorem State.setQ_b (v : Acc) : (s.setQ v).b = s.b := rfl
@[simp] theorem State.setQ_blit (v : Acc) : (s.setQ v).blit = s.blit := rfl
@[simp] theorem State.setQ_ext (v : Acc) : (s.setQ v).ext = s.ext := rfl
@[simp] theorem State.setQ_inh (v : Acc) : (s.setQ v).inh = s.inh := rfl
@[simp] theorem State.setQ_isr (v : Acc) : (s.setQ v).isr = s.isr := rfl
@[simp] theorem State.setQ_ruptReq (v : Acc) : (s.setQ v).ruptReq = s.ruptReq := rfl
@[simp] theorem State.setQ_sbank (v : Acc) : (s.setQ v).sbank = s.sbank := rfl
@[simp] theorem State.setQ_erasable (v : Acc) : (s.setQ v).erasable = s.erasable := rfl
@[simp] theorem State.setQ_rope (v : Acc) : (s.setQ v).rope = s.rope := rfl
@[simp] theorem State.setQ_chan (v : Acc) : (s.setQ v).chan = s.chan := rfl
@[simp] theorem State.setQ_pending (v : Acc) : (s.setQ v).pending = s.pending := rfl
@[simp] theorem State.setQ_inputChans (v : Acc) : (s.setQ v).inputChans = s.inputChans := rfl
@[simp] theorem State.setQ_env (v : Acc) : (s.setQ v).env = s.env := rfl
@[simp] theorem State.setQ_observed (v : Acc) : (s.setQ v).observed = s.observed := rfl
@[simp] theorem State.setQ_mct (v : Acc) : (s.setQ v).mct = s.mct := rfl
@[simp] theorem State.setQ_freeCount (v : Acc) : (s.setQ v).freeCount = s.freeCount := rfl

@[simp] theorem State.setEbank_a (v : EBank) : (s.setEbank v).a = s.a := rfl
@[simp] theorem State.setEbank_l (v : EBank) : (s.setEbank v).l = s.l := rfl
@[simp] theorem State.setEbank_q (v : EBank) : (s.setEbank v).q = s.q := rfl
@[simp] theorem State.setEbank_ebank (v : EBank) : (s.setEbank v).ebank = v := rfl
@[simp] theorem State.setEbank_fbank (v : EBank) : (s.setEbank v).fbank = s.fbank := rfl
@[simp] theorem State.setEbank_z (v : EBank) : (s.setEbank v).z = s.z := rfl
@[simp] theorem State.setEbank_b (v : EBank) : (s.setEbank v).b = s.b := rfl
@[simp] theorem State.setEbank_blit (v : EBank) : (s.setEbank v).blit = s.blit := rfl
@[simp] theorem State.setEbank_ext (v : EBank) : (s.setEbank v).ext = s.ext := rfl
@[simp] theorem State.setEbank_inh (v : EBank) : (s.setEbank v).inh = s.inh := rfl
@[simp] theorem State.setEbank_isr (v : EBank) : (s.setEbank v).isr = s.isr := rfl
@[simp] theorem State.setEbank_ruptReq (v : EBank) : (s.setEbank v).ruptReq = s.ruptReq := rfl
@[simp] theorem State.setEbank_sbank (v : EBank) : (s.setEbank v).sbank = s.sbank := rfl
@[simp] theorem State.setEbank_erasable (v : EBank) : (s.setEbank v).erasable = s.erasable := rfl
@[simp] theorem State.setEbank_rope (v : EBank) : (s.setEbank v).rope = s.rope := rfl
@[simp] theorem State.setEbank_chan (v : EBank) : (s.setEbank v).chan = s.chan := rfl
@[simp] theorem State.setEbank_pending (v : EBank) : (s.setEbank v).pending = s.pending := rfl
@[simp] theorem State.setEbank_inputChans (v : EBank) : (s.setEbank v).inputChans = s.inputChans := rfl
@[simp] theorem State.setEbank_env (v : EBank) : (s.setEbank v).env = s.env := rfl
@[simp] theorem State.setEbank_observed (v : EBank) : (s.setEbank v).observed = s.observed := rfl
@[simp] theorem State.setEbank_mct (v : EBank) : (s.setEbank v).mct = s.mct := rfl
@[simp] theorem State.setEbank_freeCount (v : EBank) : (s.setEbank v).freeCount = s.freeCount := rfl

@[simp] theorem State.setFbank_a (v : BitVec 5) : (s.setFbank v).a = s.a := rfl
@[simp] theorem State.setFbank_l (v : BitVec 5) : (s.setFbank v).l = s.l := rfl
@[simp] theorem State.setFbank_q (v : BitVec 5) : (s.setFbank v).q = s.q := rfl
@[simp] theorem State.setFbank_ebank (v : BitVec 5) : (s.setFbank v).ebank = s.ebank := rfl
@[simp] theorem State.setFbank_fbank (v : BitVec 5) : (s.setFbank v).fbank = v := rfl
@[simp] theorem State.setFbank_z (v : BitVec 5) : (s.setFbank v).z = s.z := rfl
@[simp] theorem State.setFbank_b (v : BitVec 5) : (s.setFbank v).b = s.b := rfl
@[simp] theorem State.setFbank_blit (v : BitVec 5) : (s.setFbank v).blit = s.blit := rfl
@[simp] theorem State.setFbank_ext (v : BitVec 5) : (s.setFbank v).ext = s.ext := rfl
@[simp] theorem State.setFbank_inh (v : BitVec 5) : (s.setFbank v).inh = s.inh := rfl
@[simp] theorem State.setFbank_isr (v : BitVec 5) : (s.setFbank v).isr = s.isr := rfl
@[simp] theorem State.setFbank_ruptReq (v : BitVec 5) : (s.setFbank v).ruptReq = s.ruptReq := rfl
@[simp] theorem State.setFbank_sbank (v : BitVec 5) : (s.setFbank v).sbank = s.sbank := rfl
@[simp] theorem State.setFbank_erasable (v : BitVec 5) : (s.setFbank v).erasable = s.erasable := rfl
@[simp] theorem State.setFbank_rope (v : BitVec 5) : (s.setFbank v).rope = s.rope := rfl
@[simp] theorem State.setFbank_chan (v : BitVec 5) : (s.setFbank v).chan = s.chan := rfl
@[simp] theorem State.setFbank_pending (v : BitVec 5) : (s.setFbank v).pending = s.pending := rfl
@[simp] theorem State.setFbank_inputChans (v : BitVec 5) : (s.setFbank v).inputChans = s.inputChans := rfl
@[simp] theorem State.setFbank_env (v : BitVec 5) : (s.setFbank v).env = s.env := rfl
@[simp] theorem State.setFbank_observed (v : BitVec 5) : (s.setFbank v).observed = s.observed := rfl
@[simp] theorem State.setFbank_mct (v : BitVec 5) : (s.setFbank v).mct = s.mct := rfl
@[simp] theorem State.setFbank_freeCount (v : BitVec 5) : (s.setFbank v).freeCount = s.freeCount := rfl

@[simp] theorem State.setZ_a (v : Addr) : (s.setZ v).a = s.a := rfl
@[simp] theorem State.setZ_l (v : Addr) : (s.setZ v).l = s.l := rfl
@[simp] theorem State.setZ_q (v : Addr) : (s.setZ v).q = s.q := rfl
@[simp] theorem State.setZ_ebank (v : Addr) : (s.setZ v).ebank = s.ebank := rfl
@[simp] theorem State.setZ_fbank (v : Addr) : (s.setZ v).fbank = s.fbank := rfl
@[simp] theorem State.setZ_z (v : Addr) : (s.setZ v).z = v := rfl
@[simp] theorem State.setZ_b (v : Addr) : (s.setZ v).b = s.b := rfl
@[simp] theorem State.setZ_blit (v : Addr) : (s.setZ v).blit = s.blit := rfl
@[simp] theorem State.setZ_ext (v : Addr) : (s.setZ v).ext = s.ext := rfl
@[simp] theorem State.setZ_inh (v : Addr) : (s.setZ v).inh = s.inh := rfl
@[simp] theorem State.setZ_isr (v : Addr) : (s.setZ v).isr = s.isr := rfl
@[simp] theorem State.setZ_ruptReq (v : Addr) : (s.setZ v).ruptReq = s.ruptReq := rfl
@[simp] theorem State.setZ_sbank (v : Addr) : (s.setZ v).sbank = s.sbank := rfl
@[simp] theorem State.setZ_erasable (v : Addr) : (s.setZ v).erasable = s.erasable := rfl
@[simp] theorem State.setZ_rope (v : Addr) : (s.setZ v).rope = s.rope := rfl
@[simp] theorem State.setZ_chan (v : Addr) : (s.setZ v).chan = s.chan := rfl
@[simp] theorem State.setZ_pending (v : Addr) : (s.setZ v).pending = s.pending := rfl
@[simp] theorem State.setZ_inputChans (v : Addr) : (s.setZ v).inputChans = s.inputChans := rfl
@[simp] theorem State.setZ_env (v : Addr) : (s.setZ v).env = s.env := rfl
@[simp] theorem State.setZ_observed (v : Addr) : (s.setZ v).observed = s.observed := rfl
@[simp] theorem State.setZ_mct (v : Addr) : (s.setZ v).mct = s.mct := rfl
@[simp] theorem State.setZ_freeCount (v : Addr) : (s.setZ v).freeCount = s.freeCount := rfl

@[simp] theorem State.setB_a (v : Word) : (s.setB v).a = s.a := rfl
@[simp] theorem State.setB_l (v : Word) : (s.setB v).l = s.l := rfl
@[simp] theorem State.setB_q (v : Word) : (s.setB v).q = s.q := rfl
@[simp] theorem State.setB_ebank (v : Word) : (s.setB v).ebank = s.ebank := rfl
@[simp] theorem State.setB_fbank (v : Word) : (s.setB v).fbank = s.fbank := rfl
@[simp] theorem State.setB_z (v : Word) : (s.setB v).z = s.z := rfl
@[simp] theorem State.setB_b (v : Word) : (s.setB v).b = v := rfl
@[simp] theorem State.setB_blit (v : Word) : (s.setB v).blit = s.blit := rfl
@[simp] theorem State.setB_ext (v : Word) : (s.setB v).ext = s.ext := rfl
@[simp] theorem State.setB_inh (v : Word) : (s.setB v).inh = s.inh := rfl
@[simp] theorem State.setB_isr (v : Word) : (s.setB v).isr = s.isr := rfl
@[simp] theorem State.setB_ruptReq (v : Word) : (s.setB v).ruptReq = s.ruptReq := rfl
@[simp] theorem State.setB_sbank (v : Word) : (s.setB v).sbank = s.sbank := rfl
@[simp] theorem State.setB_erasable (v : Word) : (s.setB v).erasable = s.erasable := rfl
@[simp] theorem State.setB_rope (v : Word) : (s.setB v).rope = s.rope := rfl
@[simp] theorem State.setB_chan (v : Word) : (s.setB v).chan = s.chan := rfl
@[simp] theorem State.setB_pending (v : Word) : (s.setB v).pending = s.pending := rfl
@[simp] theorem State.setB_inputChans (v : Word) : (s.setB v).inputChans = s.inputChans := rfl
@[simp] theorem State.setB_env (v : Word) : (s.setB v).env = s.env := rfl
@[simp] theorem State.setB_observed (v : Word) : (s.setB v).observed = s.observed := rfl
@[simp] theorem State.setB_mct (v : Word) : (s.setB v).mct = s.mct := rfl
@[simp] theorem State.setB_freeCount (v : Word) : (s.setB v).freeCount = s.freeCount := rfl

@[simp] theorem State.setBlit_a (v : Bool) : (s.setBlit v).a = s.a := rfl
@[simp] theorem State.setBlit_l (v : Bool) : (s.setBlit v).l = s.l := rfl
@[simp] theorem State.setBlit_q (v : Bool) : (s.setBlit v).q = s.q := rfl
@[simp] theorem State.setBlit_ebank (v : Bool) : (s.setBlit v).ebank = s.ebank := rfl
@[simp] theorem State.setBlit_fbank (v : Bool) : (s.setBlit v).fbank = s.fbank := rfl
@[simp] theorem State.setBlit_z (v : Bool) : (s.setBlit v).z = s.z := rfl
@[simp] theorem State.setBlit_b (v : Bool) : (s.setBlit v).b = s.b := rfl
@[simp] theorem State.setBlit_blit (v : Bool) : (s.setBlit v).blit = v := rfl
@[simp] theorem State.setBlit_ext (v : Bool) : (s.setBlit v).ext = s.ext := rfl
@[simp] theorem State.setBlit_inh (v : Bool) : (s.setBlit v).inh = s.inh := rfl
@[simp] theorem State.setBlit_isr (v : Bool) : (s.setBlit v).isr = s.isr := rfl
@[simp] theorem State.setBlit_ruptReq (v : Bool) : (s.setBlit v).ruptReq = s.ruptReq := rfl
@[simp] theorem State.setBlit_sbank (v : Bool) : (s.setBlit v).sbank = s.sbank := rfl
@[simp] theorem State.setBlit_erasable (v : Bool) : (s.setBlit v).erasable = s.erasable := rfl
@[simp] theorem State.setBlit_rope (v : Bool) : (s.setBlit v).rope = s.rope := rfl
@[simp] theorem State.setBlit_chan (v : Bool) : (s.setBlit v).chan = s.chan := rfl
@[simp] theorem State.setBlit_pending (v : Bool) : (s.setBlit v).pending = s.pending := rfl
@[simp] theorem State.setBlit_inputChans (v : Bool) : (s.setBlit v).inputChans = s.inputChans := rfl
@[simp] theorem State.setBlit_env (v : Bool) : (s.setBlit v).env = s.env := rfl
@[simp] theorem State.setBlit_observed (v : Bool) : (s.setBlit v).observed = s.observed := rfl
@[simp] theorem State.setBlit_mct (v : Bool) : (s.setBlit v).mct = s.mct := rfl
@[simp] theorem State.setBlit_freeCount (v : Bool) : (s.setBlit v).freeCount = s.freeCount := rfl

@[simp] theorem State.setExt_a (v : Bool) : (s.setExt v).a = s.a := rfl
@[simp] theorem State.setExt_l (v : Bool) : (s.setExt v).l = s.l := rfl
@[simp] theorem State.setExt_q (v : Bool) : (s.setExt v).q = s.q := rfl
@[simp] theorem State.setExt_ebank (v : Bool) : (s.setExt v).ebank = s.ebank := rfl
@[simp] theorem State.setExt_fbank (v : Bool) : (s.setExt v).fbank = s.fbank := rfl
@[simp] theorem State.setExt_z (v : Bool) : (s.setExt v).z = s.z := rfl
@[simp] theorem State.setExt_b (v : Bool) : (s.setExt v).b = s.b := rfl
@[simp] theorem State.setExt_blit (v : Bool) : (s.setExt v).blit = s.blit := rfl
@[simp] theorem State.setExt_ext (v : Bool) : (s.setExt v).ext = v := rfl
@[simp] theorem State.setExt_inh (v : Bool) : (s.setExt v).inh = s.inh := rfl
@[simp] theorem State.setExt_isr (v : Bool) : (s.setExt v).isr = s.isr := rfl
@[simp] theorem State.setExt_ruptReq (v : Bool) : (s.setExt v).ruptReq = s.ruptReq := rfl
@[simp] theorem State.setExt_sbank (v : Bool) : (s.setExt v).sbank = s.sbank := rfl
@[simp] theorem State.setExt_erasable (v : Bool) : (s.setExt v).erasable = s.erasable := rfl
@[simp] theorem State.setExt_rope (v : Bool) : (s.setExt v).rope = s.rope := rfl
@[simp] theorem State.setExt_chan (v : Bool) : (s.setExt v).chan = s.chan := rfl
@[simp] theorem State.setExt_pending (v : Bool) : (s.setExt v).pending = s.pending := rfl
@[simp] theorem State.setExt_inputChans (v : Bool) : (s.setExt v).inputChans = s.inputChans := rfl
@[simp] theorem State.setExt_env (v : Bool) : (s.setExt v).env = s.env := rfl
@[simp] theorem State.setExt_observed (v : Bool) : (s.setExt v).observed = s.observed := rfl
@[simp] theorem State.setExt_mct (v : Bool) : (s.setExt v).mct = s.mct := rfl
@[simp] theorem State.setExt_freeCount (v : Bool) : (s.setExt v).freeCount = s.freeCount := rfl

@[simp] theorem State.setInh_a (v : Bool) : (s.setInh v).a = s.a := rfl
@[simp] theorem State.setInh_l (v : Bool) : (s.setInh v).l = s.l := rfl
@[simp] theorem State.setInh_q (v : Bool) : (s.setInh v).q = s.q := rfl
@[simp] theorem State.setInh_ebank (v : Bool) : (s.setInh v).ebank = s.ebank := rfl
@[simp] theorem State.setInh_fbank (v : Bool) : (s.setInh v).fbank = s.fbank := rfl
@[simp] theorem State.setInh_z (v : Bool) : (s.setInh v).z = s.z := rfl
@[simp] theorem State.setInh_b (v : Bool) : (s.setInh v).b = s.b := rfl
@[simp] theorem State.setInh_blit (v : Bool) : (s.setInh v).blit = s.blit := rfl
@[simp] theorem State.setInh_ext (v : Bool) : (s.setInh v).ext = s.ext := rfl
@[simp] theorem State.setInh_inh (v : Bool) : (s.setInh v).inh = v := rfl
@[simp] theorem State.setInh_isr (v : Bool) : (s.setInh v).isr = s.isr := rfl
@[simp] theorem State.setInh_ruptReq (v : Bool) : (s.setInh v).ruptReq = s.ruptReq := rfl
@[simp] theorem State.setInh_sbank (v : Bool) : (s.setInh v).sbank = s.sbank := rfl
@[simp] theorem State.setInh_erasable (v : Bool) : (s.setInh v).erasable = s.erasable := rfl
@[simp] theorem State.setInh_rope (v : Bool) : (s.setInh v).rope = s.rope := rfl
@[simp] theorem State.setInh_chan (v : Bool) : (s.setInh v).chan = s.chan := rfl
@[simp] theorem State.setInh_pending (v : Bool) : (s.setInh v).pending = s.pending := rfl
@[simp] theorem State.setInh_inputChans (v : Bool) : (s.setInh v).inputChans = s.inputChans := rfl
@[simp] theorem State.setInh_env (v : Bool) : (s.setInh v).env = s.env := rfl
@[simp] theorem State.setInh_observed (v : Bool) : (s.setInh v).observed = s.observed := rfl
@[simp] theorem State.setInh_mct (v : Bool) : (s.setInh v).mct = s.mct := rfl
@[simp] theorem State.setInh_freeCount (v : Bool) : (s.setInh v).freeCount = s.freeCount := rfl

@[simp] theorem State.setIsr_a (v : Bool) : (s.setIsr v).a = s.a := rfl
@[simp] theorem State.setIsr_l (v : Bool) : (s.setIsr v).l = s.l := rfl
@[simp] theorem State.setIsr_q (v : Bool) : (s.setIsr v).q = s.q := rfl
@[simp] theorem State.setIsr_ebank (v : Bool) : (s.setIsr v).ebank = s.ebank := rfl
@[simp] theorem State.setIsr_fbank (v : Bool) : (s.setIsr v).fbank = s.fbank := rfl
@[simp] theorem State.setIsr_z (v : Bool) : (s.setIsr v).z = s.z := rfl
@[simp] theorem State.setIsr_b (v : Bool) : (s.setIsr v).b = s.b := rfl
@[simp] theorem State.setIsr_blit (v : Bool) : (s.setIsr v).blit = s.blit := rfl
@[simp] theorem State.setIsr_ext (v : Bool) : (s.setIsr v).ext = s.ext := rfl
@[simp] theorem State.setIsr_inh (v : Bool) : (s.setIsr v).inh = s.inh := rfl
@[simp] theorem State.setIsr_isr (v : Bool) : (s.setIsr v).isr = v := rfl
@[simp] theorem State.setIsr_ruptReq (v : Bool) : (s.setIsr v).ruptReq = s.ruptReq := rfl
@[simp] theorem State.setIsr_sbank (v : Bool) : (s.setIsr v).sbank = s.sbank := rfl
@[simp] theorem State.setIsr_erasable (v : Bool) : (s.setIsr v).erasable = s.erasable := rfl
@[simp] theorem State.setIsr_rope (v : Bool) : (s.setIsr v).rope = s.rope := rfl
@[simp] theorem State.setIsr_chan (v : Bool) : (s.setIsr v).chan = s.chan := rfl
@[simp] theorem State.setIsr_pending (v : Bool) : (s.setIsr v).pending = s.pending := rfl
@[simp] theorem State.setIsr_inputChans (v : Bool) : (s.setIsr v).inputChans = s.inputChans := rfl
@[simp] theorem State.setIsr_env (v : Bool) : (s.setIsr v).env = s.env := rfl
@[simp] theorem State.setIsr_observed (v : Bool) : (s.setIsr v).observed = s.observed := rfl
@[simp] theorem State.setIsr_mct (v : Bool) : (s.setIsr v).mct = s.mct := rfl
@[simp] theorem State.setIsr_freeCount (v : Bool) : (s.setIsr v).freeCount = s.freeCount := rfl

@[simp] theorem State.setRuptReq_a (v : Latches) : (s.setRuptReq v).a = s.a := rfl
@[simp] theorem State.setRuptReq_l (v : Latches) : (s.setRuptReq v).l = s.l := rfl
@[simp] theorem State.setRuptReq_q (v : Latches) : (s.setRuptReq v).q = s.q := rfl
@[simp] theorem State.setRuptReq_ebank (v : Latches) : (s.setRuptReq v).ebank = s.ebank := rfl
@[simp] theorem State.setRuptReq_fbank (v : Latches) : (s.setRuptReq v).fbank = s.fbank := rfl
@[simp] theorem State.setRuptReq_z (v : Latches) : (s.setRuptReq v).z = s.z := rfl
@[simp] theorem State.setRuptReq_b (v : Latches) : (s.setRuptReq v).b = s.b := rfl
@[simp] theorem State.setRuptReq_blit (v : Latches) : (s.setRuptReq v).blit = s.blit := rfl
@[simp] theorem State.setRuptReq_ext (v : Latches) : (s.setRuptReq v).ext = s.ext := rfl
@[simp] theorem State.setRuptReq_inh (v : Latches) : (s.setRuptReq v).inh = s.inh := rfl
@[simp] theorem State.setRuptReq_isr (v : Latches) : (s.setRuptReq v).isr = s.isr := rfl
@[simp] theorem State.setRuptReq_ruptReq (v : Latches) : (s.setRuptReq v).ruptReq = v := rfl
@[simp] theorem State.setRuptReq_sbank (v : Latches) : (s.setRuptReq v).sbank = s.sbank := rfl
@[simp] theorem State.setRuptReq_erasable (v : Latches) : (s.setRuptReq v).erasable = s.erasable := rfl
@[simp] theorem State.setRuptReq_rope (v : Latches) : (s.setRuptReq v).rope = s.rope := rfl
@[simp] theorem State.setRuptReq_chan (v : Latches) : (s.setRuptReq v).chan = s.chan := rfl
@[simp] theorem State.setRuptReq_pending (v : Latches) : (s.setRuptReq v).pending = s.pending := rfl
@[simp] theorem State.setRuptReq_inputChans (v : Latches) : (s.setRuptReq v).inputChans = s.inputChans := rfl
@[simp] theorem State.setRuptReq_env (v : Latches) : (s.setRuptReq v).env = s.env := rfl
@[simp] theorem State.setRuptReq_observed (v : Latches) : (s.setRuptReq v).observed = s.observed := rfl
@[simp] theorem State.setRuptReq_mct (v : Latches) : (s.setRuptReq v).mct = s.mct := rfl
@[simp] theorem State.setRuptReq_freeCount (v : Latches) : (s.setRuptReq v).freeCount = s.freeCount := rfl

@[simp] theorem State.setSbank_a (v : BitVec 3) : (s.setSbank v).a = s.a := rfl
@[simp] theorem State.setSbank_l (v : BitVec 3) : (s.setSbank v).l = s.l := rfl
@[simp] theorem State.setSbank_q (v : BitVec 3) : (s.setSbank v).q = s.q := rfl
@[simp] theorem State.setSbank_ebank (v : BitVec 3) : (s.setSbank v).ebank = s.ebank := rfl
@[simp] theorem State.setSbank_fbank (v : BitVec 3) : (s.setSbank v).fbank = s.fbank := rfl
@[simp] theorem State.setSbank_z (v : BitVec 3) : (s.setSbank v).z = s.z := rfl
@[simp] theorem State.setSbank_b (v : BitVec 3) : (s.setSbank v).b = s.b := rfl
@[simp] theorem State.setSbank_blit (v : BitVec 3) : (s.setSbank v).blit = s.blit := rfl
@[simp] theorem State.setSbank_ext (v : BitVec 3) : (s.setSbank v).ext = s.ext := rfl
@[simp] theorem State.setSbank_inh (v : BitVec 3) : (s.setSbank v).inh = s.inh := rfl
@[simp] theorem State.setSbank_isr (v : BitVec 3) : (s.setSbank v).isr = s.isr := rfl
@[simp] theorem State.setSbank_ruptReq (v : BitVec 3) : (s.setSbank v).ruptReq = s.ruptReq := rfl
@[simp] theorem State.setSbank_sbank (v : BitVec 3) : (s.setSbank v).sbank = v := rfl
@[simp] theorem State.setSbank_erasable (v : BitVec 3) : (s.setSbank v).erasable = s.erasable := rfl
@[simp] theorem State.setSbank_rope (v : BitVec 3) : (s.setSbank v).rope = s.rope := rfl
@[simp] theorem State.setSbank_chan (v : BitVec 3) : (s.setSbank v).chan = s.chan := rfl
@[simp] theorem State.setSbank_pending (v : BitVec 3) : (s.setSbank v).pending = s.pending := rfl
@[simp] theorem State.setSbank_inputChans (v : BitVec 3) : (s.setSbank v).inputChans = s.inputChans := rfl
@[simp] theorem State.setSbank_env (v : BitVec 3) : (s.setSbank v).env = s.env := rfl
@[simp] theorem State.setSbank_observed (v : BitVec 3) : (s.setSbank v).observed = s.observed := rfl
@[simp] theorem State.setSbank_mct (v : BitVec 3) : (s.setSbank v).mct = s.mct := rfl
@[simp] theorem State.setSbank_freeCount (v : BitVec 3) : (s.setSbank v).freeCount = s.freeCount := rfl

@[simp] theorem State.setErasable_a (v : Memory) : (s.setErasable v).a = s.a := rfl
@[simp] theorem State.setErasable_l (v : Memory) : (s.setErasable v).l = s.l := rfl
@[simp] theorem State.setErasable_q (v : Memory) : (s.setErasable v).q = s.q := rfl
@[simp] theorem State.setErasable_ebank (v : Memory) : (s.setErasable v).ebank = s.ebank := rfl
@[simp] theorem State.setErasable_fbank (v : Memory) : (s.setErasable v).fbank = s.fbank := rfl
@[simp] theorem State.setErasable_z (v : Memory) : (s.setErasable v).z = s.z := rfl
@[simp] theorem State.setErasable_b (v : Memory) : (s.setErasable v).b = s.b := rfl
@[simp] theorem State.setErasable_blit (v : Memory) : (s.setErasable v).blit = s.blit := rfl
@[simp] theorem State.setErasable_ext (v : Memory) : (s.setErasable v).ext = s.ext := rfl
@[simp] theorem State.setErasable_inh (v : Memory) : (s.setErasable v).inh = s.inh := rfl
@[simp] theorem State.setErasable_isr (v : Memory) : (s.setErasable v).isr = s.isr := rfl
@[simp] theorem State.setErasable_ruptReq (v : Memory) : (s.setErasable v).ruptReq = s.ruptReq := rfl
@[simp] theorem State.setErasable_sbank (v : Memory) : (s.setErasable v).sbank = s.sbank := rfl
@[simp] theorem State.setErasable_erasable (v : Memory) : (s.setErasable v).erasable = v := rfl
@[simp] theorem State.setErasable_rope (v : Memory) : (s.setErasable v).rope = s.rope := rfl
@[simp] theorem State.setErasable_chan (v : Memory) : (s.setErasable v).chan = s.chan := rfl
@[simp] theorem State.setErasable_pending (v : Memory) : (s.setErasable v).pending = s.pending := rfl
@[simp] theorem State.setErasable_inputChans (v : Memory) : (s.setErasable v).inputChans = s.inputChans := rfl
@[simp] theorem State.setErasable_env (v : Memory) : (s.setErasable v).env = s.env := rfl
@[simp] theorem State.setErasable_observed (v : Memory) : (s.setErasable v).observed = s.observed := rfl
@[simp] theorem State.setErasable_mct (v : Memory) : (s.setErasable v).mct = s.mct := rfl
@[simp] theorem State.setErasable_freeCount (v : Memory) : (s.setErasable v).freeCount = s.freeCount := rfl

@[simp] theorem State.setChan_a (v : Memory) : (s.setChan v).a = s.a := rfl
@[simp] theorem State.setChan_l (v : Memory) : (s.setChan v).l = s.l := rfl
@[simp] theorem State.setChan_q (v : Memory) : (s.setChan v).q = s.q := rfl
@[simp] theorem State.setChan_ebank (v : Memory) : (s.setChan v).ebank = s.ebank := rfl
@[simp] theorem State.setChan_fbank (v : Memory) : (s.setChan v).fbank = s.fbank := rfl
@[simp] theorem State.setChan_z (v : Memory) : (s.setChan v).z = s.z := rfl
@[simp] theorem State.setChan_b (v : Memory) : (s.setChan v).b = s.b := rfl
@[simp] theorem State.setChan_blit (v : Memory) : (s.setChan v).blit = s.blit := rfl
@[simp] theorem State.setChan_ext (v : Memory) : (s.setChan v).ext = s.ext := rfl
@[simp] theorem State.setChan_inh (v : Memory) : (s.setChan v).inh = s.inh := rfl
@[simp] theorem State.setChan_isr (v : Memory) : (s.setChan v).isr = s.isr := rfl
@[simp] theorem State.setChan_ruptReq (v : Memory) : (s.setChan v).ruptReq = s.ruptReq := rfl
@[simp] theorem State.setChan_sbank (v : Memory) : (s.setChan v).sbank = s.sbank := rfl
@[simp] theorem State.setChan_erasable (v : Memory) : (s.setChan v).erasable = s.erasable := rfl
@[simp] theorem State.setChan_rope (v : Memory) : (s.setChan v).rope = s.rope := rfl
@[simp] theorem State.setChan_chan (v : Memory) : (s.setChan v).chan = v := rfl
@[simp] theorem State.setChan_pending (v : Memory) : (s.setChan v).pending = s.pending := rfl
@[simp] theorem State.setChan_inputChans (v : Memory) : (s.setChan v).inputChans = s.inputChans := rfl
@[simp] theorem State.setChan_env (v : Memory) : (s.setChan v).env = s.env := rfl
@[simp] theorem State.setChan_observed (v : Memory) : (s.setChan v).observed = s.observed := rfl
@[simp] theorem State.setChan_mct (v : Memory) : (s.setChan v).mct = s.mct := rfl
@[simp] theorem State.setChan_freeCount (v : Memory) : (s.setChan v).freeCount = s.freeCount := rfl

@[simp] theorem State.setPending_a (v : List CounterReq) : (s.setPending v).a = s.a := rfl
@[simp] theorem State.setPending_l (v : List CounterReq) : (s.setPending v).l = s.l := rfl
@[simp] theorem State.setPending_q (v : List CounterReq) : (s.setPending v).q = s.q := rfl
@[simp] theorem State.setPending_ebank (v : List CounterReq) : (s.setPending v).ebank = s.ebank := rfl
@[simp] theorem State.setPending_fbank (v : List CounterReq) : (s.setPending v).fbank = s.fbank := rfl
@[simp] theorem State.setPending_z (v : List CounterReq) : (s.setPending v).z = s.z := rfl
@[simp] theorem State.setPending_b (v : List CounterReq) : (s.setPending v).b = s.b := rfl
@[simp] theorem State.setPending_blit (v : List CounterReq) : (s.setPending v).blit = s.blit := rfl
@[simp] theorem State.setPending_ext (v : List CounterReq) : (s.setPending v).ext = s.ext := rfl
@[simp] theorem State.setPending_inh (v : List CounterReq) : (s.setPending v).inh = s.inh := rfl
@[simp] theorem State.setPending_isr (v : List CounterReq) : (s.setPending v).isr = s.isr := rfl
@[simp] theorem State.setPending_ruptReq (v : List CounterReq) : (s.setPending v).ruptReq = s.ruptReq := rfl
@[simp] theorem State.setPending_sbank (v : List CounterReq) : (s.setPending v).sbank = s.sbank := rfl
@[simp] theorem State.setPending_erasable (v : List CounterReq) : (s.setPending v).erasable = s.erasable := rfl
@[simp] theorem State.setPending_rope (v : List CounterReq) : (s.setPending v).rope = s.rope := rfl
@[simp] theorem State.setPending_chan (v : List CounterReq) : (s.setPending v).chan = s.chan := rfl
@[simp] theorem State.setPending_pending (v : List CounterReq) : (s.setPending v).pending = v := rfl
@[simp] theorem State.setPending_inputChans (v : List CounterReq) : (s.setPending v).inputChans = s.inputChans := rfl
@[simp] theorem State.setPending_env (v : List CounterReq) : (s.setPending v).env = s.env := rfl
@[simp] theorem State.setPending_observed (v : List CounterReq) : (s.setPending v).observed = s.observed := rfl
@[simp] theorem State.setPending_mct (v : List CounterReq) : (s.setPending v).mct = s.mct := rfl
@[simp] theorem State.setPending_freeCount (v : List CounterReq) : (s.setPending v).freeCount = s.freeCount := rfl

@[simp] theorem State.setInputChans_a (v : List ChanNo) : (s.setInputChans v).a = s.a := rfl
@[simp] theorem State.setInputChans_l (v : List ChanNo) : (s.setInputChans v).l = s.l := rfl
@[simp] theorem State.setInputChans_q (v : List ChanNo) : (s.setInputChans v).q = s.q := rfl
@[simp] theorem State.setInputChans_ebank (v : List ChanNo) : (s.setInputChans v).ebank = s.ebank := rfl
@[simp] theorem State.setInputChans_fbank (v : List ChanNo) : (s.setInputChans v).fbank = s.fbank := rfl
@[simp] theorem State.setInputChans_z (v : List ChanNo) : (s.setInputChans v).z = s.z := rfl
@[simp] theorem State.setInputChans_b (v : List ChanNo) : (s.setInputChans v).b = s.b := rfl
@[simp] theorem State.setInputChans_blit (v : List ChanNo) : (s.setInputChans v).blit = s.blit := rfl
@[simp] theorem State.setInputChans_ext (v : List ChanNo) : (s.setInputChans v).ext = s.ext := rfl
@[simp] theorem State.setInputChans_inh (v : List ChanNo) : (s.setInputChans v).inh = s.inh := rfl
@[simp] theorem State.setInputChans_isr (v : List ChanNo) : (s.setInputChans v).isr = s.isr := rfl
@[simp] theorem State.setInputChans_ruptReq (v : List ChanNo) : (s.setInputChans v).ruptReq = s.ruptReq := rfl
@[simp] theorem State.setInputChans_sbank (v : List ChanNo) : (s.setInputChans v).sbank = s.sbank := rfl
@[simp] theorem State.setInputChans_erasable (v : List ChanNo) : (s.setInputChans v).erasable = s.erasable := rfl
@[simp] theorem State.setInputChans_rope (v : List ChanNo) : (s.setInputChans v).rope = s.rope := rfl
@[simp] theorem State.setInputChans_chan (v : List ChanNo) : (s.setInputChans v).chan = s.chan := rfl
@[simp] theorem State.setInputChans_pending (v : List ChanNo) : (s.setInputChans v).pending = s.pending := rfl
@[simp] theorem State.setInputChans_inputChans (v : List ChanNo) : (s.setInputChans v).inputChans = v := rfl
@[simp] theorem State.setInputChans_env (v : List ChanNo) : (s.setInputChans v).env = s.env := rfl
@[simp] theorem State.setInputChans_observed (v : List ChanNo) : (s.setInputChans v).observed = s.observed := rfl
@[simp] theorem State.setInputChans_mct (v : List ChanNo) : (s.setInputChans v).mct = s.mct := rfl
@[simp] theorem State.setInputChans_freeCount (v : List ChanNo) : (s.setInputChans v).freeCount = s.freeCount := rfl

@[simp] theorem State.setEnv_a (v : List Boundary) : (s.setEnv v).a = s.a := rfl
@[simp] theorem State.setEnv_l (v : List Boundary) : (s.setEnv v).l = s.l := rfl
@[simp] theorem State.setEnv_q (v : List Boundary) : (s.setEnv v).q = s.q := rfl
@[simp] theorem State.setEnv_ebank (v : List Boundary) : (s.setEnv v).ebank = s.ebank := rfl
@[simp] theorem State.setEnv_fbank (v : List Boundary) : (s.setEnv v).fbank = s.fbank := rfl
@[simp] theorem State.setEnv_z (v : List Boundary) : (s.setEnv v).z = s.z := rfl
@[simp] theorem State.setEnv_b (v : List Boundary) : (s.setEnv v).b = s.b := rfl
@[simp] theorem State.setEnv_blit (v : List Boundary) : (s.setEnv v).blit = s.blit := rfl
@[simp] theorem State.setEnv_ext (v : List Boundary) : (s.setEnv v).ext = s.ext := rfl
@[simp] theorem State.setEnv_inh (v : List Boundary) : (s.setEnv v).inh = s.inh := rfl
@[simp] theorem State.setEnv_isr (v : List Boundary) : (s.setEnv v).isr = s.isr := rfl
@[simp] theorem State.setEnv_ruptReq (v : List Boundary) : (s.setEnv v).ruptReq = s.ruptReq := rfl
@[simp] theorem State.setEnv_sbank (v : List Boundary) : (s.setEnv v).sbank = s.sbank := rfl
@[simp] theorem State.setEnv_erasable (v : List Boundary) : (s.setEnv v).erasable = s.erasable := rfl
@[simp] theorem State.setEnv_rope (v : List Boundary) : (s.setEnv v).rope = s.rope := rfl
@[simp] theorem State.setEnv_chan (v : List Boundary) : (s.setEnv v).chan = s.chan := rfl
@[simp] theorem State.setEnv_pending (v : List Boundary) : (s.setEnv v).pending = s.pending := rfl
@[simp] theorem State.setEnv_inputChans (v : List Boundary) : (s.setEnv v).inputChans = s.inputChans := rfl
@[simp] theorem State.setEnv_env (v : List Boundary) : (s.setEnv v).env = v := rfl
@[simp] theorem State.setEnv_observed (v : List Boundary) : (s.setEnv v).observed = s.observed := rfl
@[simp] theorem State.setEnv_mct (v : List Boundary) : (s.setEnv v).mct = s.mct := rfl
@[simp] theorem State.setEnv_freeCount (v : List Boundary) : (s.setEnv v).freeCount = s.freeCount := rfl

@[simp] theorem State.setObserved_a (v : List Observation) : (s.setObserved v).a = s.a := rfl
@[simp] theorem State.setObserved_l (v : List Observation) : (s.setObserved v).l = s.l := rfl
@[simp] theorem State.setObserved_q (v : List Observation) : (s.setObserved v).q = s.q := rfl
@[simp] theorem State.setObserved_ebank (v : List Observation) : (s.setObserved v).ebank = s.ebank := rfl
@[simp] theorem State.setObserved_fbank (v : List Observation) : (s.setObserved v).fbank = s.fbank := rfl
@[simp] theorem State.setObserved_z (v : List Observation) : (s.setObserved v).z = s.z := rfl
@[simp] theorem State.setObserved_b (v : List Observation) : (s.setObserved v).b = s.b := rfl
@[simp] theorem State.setObserved_blit (v : List Observation) : (s.setObserved v).blit = s.blit := rfl
@[simp] theorem State.setObserved_ext (v : List Observation) : (s.setObserved v).ext = s.ext := rfl
@[simp] theorem State.setObserved_inh (v : List Observation) : (s.setObserved v).inh = s.inh := rfl
@[simp] theorem State.setObserved_isr (v : List Observation) : (s.setObserved v).isr = s.isr := rfl
@[simp] theorem State.setObserved_ruptReq (v : List Observation) : (s.setObserved v).ruptReq = s.ruptReq := rfl
@[simp] theorem State.setObserved_sbank (v : List Observation) : (s.setObserved v).sbank = s.sbank := rfl
@[simp] theorem State.setObserved_erasable (v : List Observation) : (s.setObserved v).erasable = s.erasable := rfl
@[simp] theorem State.setObserved_rope (v : List Observation) : (s.setObserved v).rope = s.rope := rfl
@[simp] theorem State.setObserved_chan (v : List Observation) : (s.setObserved v).chan = s.chan := rfl
@[simp] theorem State.setObserved_pending (v : List Observation) : (s.setObserved v).pending = s.pending := rfl
@[simp] theorem State.setObserved_inputChans (v : List Observation) : (s.setObserved v).inputChans = s.inputChans := rfl
@[simp] theorem State.setObserved_env (v : List Observation) : (s.setObserved v).env = s.env := rfl
@[simp] theorem State.setObserved_observed (v : List Observation) : (s.setObserved v).observed = v := rfl
@[simp] theorem State.setObserved_mct (v : List Observation) : (s.setObserved v).mct = s.mct := rfl
@[simp] theorem State.setObserved_freeCount (v : List Observation) : (s.setObserved v).freeCount = s.freeCount := rfl

@[simp] theorem State.setMct_a (v : Nat) : (s.setMct v).a = s.a := rfl
@[simp] theorem State.setMct_l (v : Nat) : (s.setMct v).l = s.l := rfl
@[simp] theorem State.setMct_q (v : Nat) : (s.setMct v).q = s.q := rfl
@[simp] theorem State.setMct_ebank (v : Nat) : (s.setMct v).ebank = s.ebank := rfl
@[simp] theorem State.setMct_fbank (v : Nat) : (s.setMct v).fbank = s.fbank := rfl
@[simp] theorem State.setMct_z (v : Nat) : (s.setMct v).z = s.z := rfl
@[simp] theorem State.setMct_b (v : Nat) : (s.setMct v).b = s.b := rfl
@[simp] theorem State.setMct_blit (v : Nat) : (s.setMct v).blit = s.blit := rfl
@[simp] theorem State.setMct_ext (v : Nat) : (s.setMct v).ext = s.ext := rfl
@[simp] theorem State.setMct_inh (v : Nat) : (s.setMct v).inh = s.inh := rfl
@[simp] theorem State.setMct_isr (v : Nat) : (s.setMct v).isr = s.isr := rfl
@[simp] theorem State.setMct_ruptReq (v : Nat) : (s.setMct v).ruptReq = s.ruptReq := rfl
@[simp] theorem State.setMct_sbank (v : Nat) : (s.setMct v).sbank = s.sbank := rfl
@[simp] theorem State.setMct_erasable (v : Nat) : (s.setMct v).erasable = s.erasable := rfl
@[simp] theorem State.setMct_rope (v : Nat) : (s.setMct v).rope = s.rope := rfl
@[simp] theorem State.setMct_chan (v : Nat) : (s.setMct v).chan = s.chan := rfl
@[simp] theorem State.setMct_pending (v : Nat) : (s.setMct v).pending = s.pending := rfl
@[simp] theorem State.setMct_inputChans (v : Nat) : (s.setMct v).inputChans = s.inputChans := rfl
@[simp] theorem State.setMct_env (v : Nat) : (s.setMct v).env = s.env := rfl
@[simp] theorem State.setMct_observed (v : Nat) : (s.setMct v).observed = s.observed := rfl
@[simp] theorem State.setMct_mct (v : Nat) : (s.setMct v).mct = v := rfl
@[simp] theorem State.setMct_freeCount (v : Nat) : (s.setMct v).freeCount = s.freeCount := rfl

@[simp] theorem State.setFreeCount_a (v : Nat) : (s.setFreeCount v).a = s.a := rfl
@[simp] theorem State.setFreeCount_l (v : Nat) : (s.setFreeCount v).l = s.l := rfl
@[simp] theorem State.setFreeCount_q (v : Nat) : (s.setFreeCount v).q = s.q := rfl
@[simp] theorem State.setFreeCount_ebank (v : Nat) : (s.setFreeCount v).ebank = s.ebank := rfl
@[simp] theorem State.setFreeCount_fbank (v : Nat) : (s.setFreeCount v).fbank = s.fbank := rfl
@[simp] theorem State.setFreeCount_z (v : Nat) : (s.setFreeCount v).z = s.z := rfl
@[simp] theorem State.setFreeCount_b (v : Nat) : (s.setFreeCount v).b = s.b := rfl
@[simp] theorem State.setFreeCount_blit (v : Nat) : (s.setFreeCount v).blit = s.blit := rfl
@[simp] theorem State.setFreeCount_ext (v : Nat) : (s.setFreeCount v).ext = s.ext := rfl
@[simp] theorem State.setFreeCount_inh (v : Nat) : (s.setFreeCount v).inh = s.inh := rfl
@[simp] theorem State.setFreeCount_isr (v : Nat) : (s.setFreeCount v).isr = s.isr := rfl
@[simp] theorem State.setFreeCount_ruptReq (v : Nat) : (s.setFreeCount v).ruptReq = s.ruptReq := rfl
@[simp] theorem State.setFreeCount_sbank (v : Nat) : (s.setFreeCount v).sbank = s.sbank := rfl
@[simp] theorem State.setFreeCount_erasable (v : Nat) : (s.setFreeCount v).erasable = s.erasable := rfl
@[simp] theorem State.setFreeCount_rope (v : Nat) : (s.setFreeCount v).rope = s.rope := rfl
@[simp] theorem State.setFreeCount_chan (v : Nat) : (s.setFreeCount v).chan = s.chan := rfl
@[simp] theorem State.setFreeCount_pending (v : Nat) : (s.setFreeCount v).pending = s.pending := rfl
@[simp] theorem State.setFreeCount_inputChans (v : Nat) : (s.setFreeCount v).inputChans = s.inputChans := rfl
@[simp] theorem State.setFreeCount_env (v : Nat) : (s.setFreeCount v).env = s.env := rfl
@[simp] theorem State.setFreeCount_observed (v : Nat) : (s.setFreeCount v).observed = s.observed := rfl
@[simp] theorem State.setFreeCount_mct (v : Nat) : (s.setFreeCount v).mct = s.mct := rfl
@[simp] theorem State.setFreeCount_freeCount (v : Nat) : (s.setFreeCount v).freeCount = v := rfl

end Sys2Proof.Machine
end

