-- ==== Sys2Proof/Laws/Ops.lean ====
section
/-! SUPPORT. One lemma per shared operation that says once everything it can do: most say which record update it is, so
that a projection of the result is read off by `simp`. -/

namespace Sys2Proof.Machine

/-! ### Keys -/

theorem eraseKey_inj (b b' : EBank) (o o' : EOff) : eraseKey b o = eraseKey b' o' ↔ b = b' ∧ o = o' := by
  have h1 := o.isLt
  have h2 := o'.isLt
  constructor
  · intro h
    simp only [eraseKey] at h
    exact ⟨BitVec.eq_of_toNat_eq (by omega), BitVec.eq_of_toNat_eq (by omega)⟩
  · rintro ⟨rfl, rfl⟩; rfl

theorem eraseKey_lt (b : EBank) (o : EOff) : eraseKey b o < 0o4000 := by
  have h1 := o.isLt
  have h2 := b.isLt
  simp only [eraseKey]; omega

/-- A cell that no register stands for has a key past the eight of the registers. -/
theorem eraseKey_ge {b : EBank} {o : EOff} (h : b ≠ 0#3 ∨ 8 ≤ o.toNat) : 0o10 ≤ eraseKey b o := by
  have h0 : b ≠ 0#3 → b.toNat ≠ 0 := fun hb h' => hb (BitVec.eq_of_toNat_eq (by simpa using h'))
  have h1 := o.isLt
  simp only [eraseKey]
  rcases h with h | h
  · have := h0 h; omega
  · omega

/-! ### Resolving and reading depend on little -/

theorem resolve_congr {s t : State} (h1 : t.ebank = s.ebank) (h2 : t.fbank = s.fbank) (h3 : t.sbank = s.sbank)
    (k : Addr) : resolve t k = resolve s k := by
  unfold resolve eraseBank fixedBank
  rw [h1, h2, h3]

theorem memRead_congr {s t : State} (ha : t.a = s.a) (hl : t.l = s.l) (hq : t.q = s.q) (h1 : t.ebank = s.ebank)
    (h2 : t.fbank = s.fbank) (hz : t.z = s.z) (h3 : t.sbank = s.sbank) (he : t.erasable = s.erasable)
    (hr : t.rope = s.rope) (k : Addr) : memRead t k = memRead s k := by
  unfold memRead
  rw [resolve_congr h1 h2 h3]
  cases resolve s k with
  | reg r => cases r <;> simp only [regRead15, ha, hl, hq, h1, h2, hz]
  | eras b o => simp only [eraseRead, he]
  | fixed b o => simp only [hr]
  | noRope => rfl

/-- What `RdOp(K)` reads, by the kind of location. -/
theorem rdOp_eq (s : State) (k : Addr) :
    rdOp s k = match resolve s k with
      | .reg .a => s.a
      | .reg .q => s.q
      | .reg r => sext16 (regRead15 s r)
      | .eras bank off => sext16 (eraseRead s bank off)
      | .fixed bank off => sext16 (s.rope.read (ropeKey bank off))
      | .noRope => sext16 Config.noRopeWord := by
  unfold rdOp memRead
  cases resolve s k with
  | reg r => cases r <;> rfl
  | eras b o => rfl
  | fixed b o => rfl
  | noRope => rfl

/-- `Is16(K)`, R197. -/
theorem is16_iff (s : State) (k : Addr) : is16 s k = true ↔ resolve s k = .reg .a ∨ resolve s k = .reg .q := by
  unfold is16
  cases resolve s k with
  | reg r => cases r <;> simp
  | eras b o => simp
  | fixed b o => simp
  | noRope => simp

/-! ### Writing an operand -/

/-- The erasable memory after a store of `w` to `loc`. -/
def storedErasable (m : Memory) (loc : Loc) (w : Word) : Memory :=
  match loc with
  | .eras bank off => m.write (eraseKey bank off) (edit bank off w)
  | .reg _ => m
  | .fixed _ _ => m
  | .noRope => m

/-- Everything `WrOp(K, v)` can do. -/
theorem wrOp_eq (s : State) (k : Addr) (v : Acc) :
    wrOp s k v = { s with
      a := storedA s.a (resolve s k) v
      l := storedL s.l (resolve s k) v
      q := storedQ s.q (resolve s k) v
      ebank := storedEbank s.ebank (resolve s k) v
      fbank := storedFbank s.fbank (resolve s k) v
      z := storedZ s.z (resolve s k) v
      erasable := storedErasable s.erasable (resolve s k) (ovc v) } := by
  unfold wrOp memWrite
  cases resolve s k with
  | reg r => cases r <;> rfl
  | eras b o => rfl
  | fixed b o => rfl
  | noRope => rfl

theorem ebWord_back (e : EBank) : (ebWord e).extractLsb' 8 3 = e := by revert e; decide

theorem fbWord_back (f : BitVec 5) : (fbWord f).extractLsb' 10 5 = f := by revert f; decide

theorem bbWord_fbank (f : BitVec 5) (e : EBank) : (bbWord f e).extractLsb' 10 5 = f := by revert f e; decide

theorem bbWord_ebank (f : BitVec 5) (e : EBank) : (bbWord f e).extractLsb' 0 3 = e := by revert f e; decide

theorem zext15_back (z : Addr) : (zext15 z).extractLsb' 0 12 = z := by
  apply BitVec.eq_of_toNat_eq
  have := z.isLt
  simp [zext15]
  omega

/-- Everything `ReWrite(K)` can do: only a cell that is edited can change. -/
theorem reWrite_eq (s : State) (k : Addr) :
    reWrite s k = { s with
      erasable := match resolve s k with
        | .eras bank off => s.erasable.write (eraseKey bank off) (edit bank off (eraseRead s bank off))
        | .reg _ => s.erasable
        | .fixed _ _ => s.erasable
        | .noRope => s.erasable } := by
  unfold reWrite is16 memWrite memRead
  cases resolve s k with
  | reg r =>
    cases r <;>
      simp [regRead15, regWrite15, State.setL, State.setEbank, State.setFbank, State.setZ, ebWord_back, fbWord_back,
        bbWord_fbank, bbWord_ebank, zext15_back]
  | eras b o => rfl
  | fixed b o => rfl
  | noRope => rfl

/-- A read of a cell after a store. -/
theorem eraseRead_stored (s t : State) (loc : Loc) (w : Word) (h : t.erasable = storedErasable s.erasable loc w) :
    StoredWord s loc w t := by
  intro bank off
  unfold eraseRead
  rw [h]
  cases loc with
  | eras b o => simp [storedErasable, eraseKey_inj]; split <;> simp_all
  | reg r => simp [storedErasable]
  | fixed b o => simp [storedErasable]
  | noRope => simp [storedErasable]

/-- A read of a cell after a re-write. -/
theorem reedited_reWrite (s t : State) (k : Addr) (h : t.erasable = (reWrite s k).erasable) :
    Reedited s (resolve s k) t := by
  intro bank off
  unfold eraseRead
  rw [h, reWrite_eq]
  cases resolve s k with
  | eras b o => simp [eraseKey_inj]; split <;> simp_all [eraseRead]
  | reg r => simp
  | fixed b o => simp
  | noRope => simp

/-- A read of a cell after the write of a plain cell. -/
@[simp] theorem eraseRead_eraseWrite (s : State) (b b' : EBank) (o o' : EOff) (w : Word) :
    eraseRead (eraseWrite s b o w) b' o' = if b = b' ∧ o = o' then w else eraseRead s b' o' := by
  simp [eraseRead, eraseWrite, eraseKey_inj]

/-! ### The next instruction -/

/-- Everything the load of B at `k` can do. -/
theorem jumpTo_eq (s : State) (k : Addr) :
    jumpTo s k = { s with b := fetchWord s k, z := k + 1#12, blit := false } := rfl

/-- Everything `NextInstruction()` can do. -/
theorem nextInstruction_eq (s : State) :
    nextInstruction s = { s with b := fetchWord s s.z, z := s.z + 1#12, blit := false } := rfl

/-- Everything the end of an instruction that has not assigned B can do. -/
theorem done_eq (s : State) (n : Nat) :
    done s n = .next { s with b := fetchWord s s.z, z := s.z + 1#12, blit := false, ext := false, mct := s.mct + n } := by
  have h : fetchWord (s.setExt false) s.z = fetchWord s s.z := memRead_congr rfl rfl rfl rfl rfl rfl rfl rfl rfl _
  simp [done, nextInstruction, jumpTo, loadB, State.tick, State.setB, State.setZ, State.setBlit, State.setExt,
    State.setMct]
  exact h

/-- Everything the end of an instruction that has assigned B can do. -/
theorem doneB_eq (s : State) (n : Nat) : doneB s n = .next { s with ext := false, mct := s.mct + n } := rfl

/-- The word fetched at the end of an instruction is the one the statements name. -/
theorem nextAt_of {s t : State} {k : Addr} (hk : s.z = k) (hb : t.b = fetchWord s k) (hz : t.z = k + 1#12)
    (hblit : t.blit = false) (ha : t.a = s.a) (hl : t.l = s.l) (hq : t.q = s.q) (h1 : t.ebank = s.ebank)
    (h2 : t.fbank = s.fbank) (h3 : t.sbank = s.sbank) (he : t.erasable = s.erasable) (hr : t.rope = s.rope) :
    NextAt t k := by
  refine ⟨?_, hz, hblit⟩
  rw [hb]
  exact (memRead_congr (t := t.setZ k) ha hl hq h1 h2 hk.symm h3 he hr k).symm

/-- Everything the end of an instruction that has not assigned B can do, in the terms of the statements. -/
theorem done_spec (u : State) (n : Nat) :
    ∃ t, done u n = .next t ∧ EndsAt u t u.z n ∧ t.a = u.a ∧ t.l = u.l ∧ t.q = u.q ∧ SameBanks u t
      ∧ t.erasable = u.erasable ∧ SameOutside u t := by
  refine ⟨_, done_eq u n, ⟨?_, rfl, rfl⟩, rfl, rfl, rfl, ⟨rfl, rfl⟩, rfl, ⟨rfl, rfl⟩, ⟨rfl, rfl, rfl, rfl, rfl, rfl⟩,
    rfl, rfl, rfl⟩
  exact nextAt_of rfl rfl rfl rfl rfl rfl rfl rfl rfl rfl rfl rfl

/-- Everything the end of an instruction that has jumped to `k` can do, in the terms of the statements. -/
theorem doneB_spec (u : State) (w : Word) (k : Addr) (n : Nat) :
    ∃ t, doneB (loadB u w (k + 1#12)) n = .next t ∧ HoldsNext t w k ∧ t.ext = false ∧ Took u t n ∧ t.a = u.a ∧ t.l = u.l
      ∧ t.q = u.q ∧ SameBanks u t ∧ t.erasable = u.erasable ∧ SameOutside u t :=
  ⟨_, doneB_eq _ n, ⟨rfl, rfl, rfl⟩, rfl, rfl, rfl, rfl, rfl, ⟨rfl, rfl⟩, rfl, ⟨rfl, rfl⟩, ⟨rfl, rfl, rfl, rfl, rfl, rfl⟩,
    rfl, rfl, rfl⟩

/-! ### Counting -/

/-- Everything `CounterOverflow(K)` can do. -/
theorem locOverflow_eq (s : State) (loc : Loc) :
    locOverflow s loc = { s with
      pending := if loc = .eras 0#3 0o25#8 then s.pending ++ [.pinc .time2] else s.pending
      ruptReq := if loc = .eras 0#3 0o26#8 then s.ruptReq.put .t3rupt true
        else if loc = .eras 0#3 0o27#8 then s.ruptReq.put .t4rupt true
        else if loc = .eras 0#3 0o30#8 then s.ruptReq.put .t5rupt true
        else if loc = .eras 0#3 0o31#8 then s.ruptReq.put .t6rupt true
        else s.ruptReq } := by
  cases loc with
  | reg r => simp [locOverflow]
  | fixed b o => simp [locOverflow]
  | noRope => simp [locOverflow]
  | eras b o =>
    unfold locOverflow counterOverflow
    by_cases hb : b = 0#3
    · subst hb
      have hn : ∀ n : EOff, o = n ↔ o.toNat = n.toNat := fun n =>
        ⟨fun h => by rw [h], fun h => BitVec.eq_of_toNat_eq h⟩
      simp only [if_true, Loc.eras.injEq, true_and, hn]
      split <;> simp_all [post, raise, State.setPending, State.setRuptReq]
    · simp [hb]

/-! ### Channels -/

/-- The word of a channel that is no register of the CPU. -/
theorem chan15_ordinary (s : State) {c : ChanNo} (h1 : c ≠ 1#9) (h2 : c ≠ 2#9) (h7 : c ≠ 7#9) :
    chan15 s c = s.chan.read c.toNat := by
  unfold chan15 chanRead
  rw [if_neg h1, if_neg h2, if_neg h7, ovc_sext16]

/-- Everything a channel write can do. -/
theorem chanWrite_eq (s : State) (c : ChanNo) (v : Acc) :
    chanWrite s c v = { s with
      l := if c = 1#9 then ovc v else s.l
      q := if c = 2#9 then v else s.q
      sbank := if c = 7#9 then v.extractLsb' 4 3 else s.sbank
      chan := if c = 1#9 ∨ c = 2#9 ∨ c = 7#9 ∨ isInput s c = true then s.chan else s.chan.write c.toNat (ovc v)
      observed := .chanWrite c (chanValue c v) :: s.observed } := by
  unfold chanWrite chanStore
  by_cases h1 : c = 1#9
  · subst h1; simp [State.observe, State.setObserved, State.setL]
  · by_cases h2 : c = 2#9
    · subst h2; simp [State.observe, State.setObserved, State.setQ]
    · by_cases h7 : c = 7#9
      · subst h7; simp [State.observe, State.setObserved, State.setSbank]
      · by_cases hi : isInput s c = true <;>
          simp [h1, h2, h7, hi, State.observe, State.setObserved, State.setChan]

/-! ### Interrupts -/

/-- Reading the latches after one has been written. -/
@[simp] theorem Latches.get_put (r : Latches) (i j : Interrupt) (v : Bool) :
    (r.put i v).get j = if i = j then v else r.get j := by
  cases i <;> cases j <;> rfl

/-- Everything taking an interrupt can do. -/
theorem vectorTo_eq (s : State) (i : Interrupt) :
    vectorTo s i = { s with
      erasable := (s.erasable.write (eraseKey 0#3 zruptOff) (zext15 s.z)).write (eraseKey 0#3 bruptOff) s.b
      ruptReq := s.ruptReq.put i false
      isr := true
      b := fetchWord s i.vector
      z := i.vector + 1#12
      blit := false } := by
  have h : ∀ t : State, t.rope = s.rope → fetchWord t i.vector = fetchWord s i.vector := by
    intro t ht
    unfold fetchWord memRead
    have h1 : ∀ u : State, resolve u i.vector = .fixed 2 (i.vector.extractLsb' 0 10) := by
      intro u; cases i <;> rfl
    rw [h1, h1, ht]
  unfold vectorTo
  rw [jumpTo_eq]
  simp only [saveB, saveZ, eraseWrite, State.setErasable, State.setRuptReq, State.setIsr, State.mk.injEq, true_and,
    and_true]
  exact h _ rfl

/-- Everything RESUME's three assignments can do. -/
theorem returnFromInterrupt_eq (s : State) :
    returnFromInterrupt s = { s with
      isr := false
      b := eraseRead s 0#3 bruptOff
      z := (eraseRead s 0#3 zruptOff).extractLsb' 0 12
      blit := false } := rfl

/-- Everything GOJ can do. -/
theorem goj_eq (s : State) :
    goj s = { s with isr := false, ext := false, blit := false, b := s.rope.read 0o4000, z := 0o4001#12, mct := s.mct + 2 } :=
  rfl

/-! ### The instructions with an ending of their own -/

/-- Everything EXTEND can do. -/
theorem execExtend_eq (s : State) :
    execExtend s = .next { s with
      b := fetchWord s s.z, z := s.z + 1#12, blit := false, ext := true, mct := s.mct + 1 } := by
  have h : fetchWord (s.setExt true) s.z = fetchWord s s.z := memRead_congr rfl rfl rfl rfl rfl rfl rfl rfl rfl _
  simp [execExtend, nextInstruction, jumpTo, loadB, State.tick, State.setB, State.setZ, State.setBlit, State.setExt,
    State.setMct]
  exact h

/-- Everything INDEX can do, with the re-written cell in `reWrite`. -/
theorem indexNext_eq (k : Addr) (s : State) :
    indexNext k s = .next { s with
      erasable := (reWrite s k).erasable
      b := indexedWord (ovc (rdOp s k)) (fetchWord (reWrite s k) s.z)
      z := s.z + 1#12
      blit := true
      mct := s.mct + 2 } := by
  have hz : (reWrite s k).z = s.z := by rw [reWrite_eq]
  unfold indexNext
  dsimp only
  rw [hz]
  generalize fetchWord (reWrite s k) s.z = w
  rw [reWrite_eq]
  rfl

/-- Everything RESUME can do. -/
theorem execResume_eq (s : State) :
    execResume s = .next { s with
      isr := false
      b := eraseRead s 0#3 bruptOff
      z := (eraseRead s 0#3 zruptOff).extractLsb' 0 12
      blit := false
      ext := false
      mct := s.mct + 2 } := rfl

/-- Everything EDRUPT can do. -/
theorem execEdrupt_eq (c : ChanNo) (s : State) :
    execEdrupt c s = .next { s with
      isr := true
      erasable := s.erasable.write (eraseKey 0#3 zruptOff) (zext15 s.z)
      b := ovc s.a
      z := 1#12
      blit := false
      ext := false
      mct := s.mct + 3 } := by
  have h : ∀ t : State, fetchWord t 0#12 = ovc t.a := fun t => by
    have hr : resolve t 0#12 = .reg .a := rfl
    simp only [fetchWord, memRead, hr, regRead15]
  unfold execEdrupt programmedEntry
  rw [doneB_eq, jumpTo_eq, h]
  simp only [saveZ, eraseWrite, State.setErasable, State.setIsr]
  rfl

/-- The state after power-up is GOJ of a state whose registers all hold 0. -/
theorem reset_is_goj : State.reset = goj { State.reset with z := 0, mct := 0 } := rfl

end Sys2Proof.Machine
end

