-- ==== Sys2Proof/Laws/Cycle.lean ====
section
/-! SUPPORT. What the environment's acts and one step can do: which record update an act is, how a property goes through the
acts of a boundary, and the four cases of a step. -/

namespace Sys2Proof.Machine

/-! ### The acts of the environment -/

/-- Everything a change of an input channel can do. -/
theorem presentChannel_eq (s : State) (c : ChanNo) (v : Word) :
    presentChannel s c v = { s with
      chan := if isInput s c ∧ c ∉ scalerChans then s.chan.write c.toNat v else s.chan } := by
  unfold presentChannel; split <;> rfl

/-- Which channels are inputs. -/
theorem isInput_iff (s : State) (c : ChanNo) :
    isInput s c = true ↔ c ∈ alwaysInput ∨ c ∈ s.inputChans ∧ c ∉ neverInput :=
  decide_eq_true_iff

/-- An input channel is none of those that can not be inputs. -/
theorem isInput_not_neverInput {s : State} {c : ChanNo} (h : isInput s c = true) : c ∉ neverInput := by
  rcases (isInput_iff s c).mp h with h | h
  · have hdisj : ∀ d ∈ alwaysInput, d ∉ neverInput := by decide
    exact hdisj c h
  · exact h.2

/-- No register of the CPU is an input channel. -/
theorem isInput_ordinary {s : State} {c : ChanNo} (h : isInput s c = true) : c ≠ 1#9 ∧ c ≠ 2#9 ∧ c ≠ 7#9 := by
  have := isInput_not_neverInput h
  refine ⟨?_, ?_, ?_⟩ <;> rintro rfl <;> exact this (by decide)

/-- Everything an advance of the scaler can do. -/
theorem advanceScaler_eq (s : State) : advanceScaler s = { s with chan := (advanceScaler s).chan } := by
  unfold advanceScaler; dsimp only; split <;> rfl

/-- Everything one act of the environment can do: only the pending requests, the latches, the channels and erasable memory
can change. -/
theorem applyEvent_eq (s : State) (e : EnvEvent) :
    applyEvent s e = { s with
      pending := match e with
        | .count r => if requestAllowed s r then s.pending ++ [r] else s.pending
        | _ => s.pending
      ruptReq := match e with
        | .keyRupt1 => s.ruptReq.put .keyrupt1 true
        | .keyRupt2 => s.ruptReq.put .keyrupt2 true
        | .downRupt => s.ruptReq.put .downrupt true
        | .radarRupt => s.ruptReq.put .radarRupt true
        | .handRupt => if handRuptAllowed s then s.ruptReq.put .rupt10 true else s.ruptReq
        | _ => s.ruptReq
      chan := match e with
        | .channel c v => (presentChannel s c v).chan
        | .scaler => (advanceScaler s).chan
        | _ => s.chan
      erasable := match e with
        | .drain c => if driveEnabled s c then s.erasable.write (eraseKey 0#3 c.off) 0#15 else s.erasable
        | _ => s.erasable } := by
  cases e with
  | count r => simp only [applyEvent]; split <;> rfl
  | handRupt => simp only [applyEvent]; split <;> rfl
  | channel c v => simp only [applyEvent]; rw [presentChannel_eq]
  | scaler => simp only [applyEvent]; rw [advanceScaler_eq]
  | drain c => simp only [applyEvent]; split <;> rfl
  | keyRupt1 => rfl
  | keyRupt2 => rfl
  | downRupt => rfl
  | radarRupt => rfl

/-- A property that every act keeps holds at the boundary if it holds of the state with its next boundary taken off. -/
theorem atBoundary_induct {P : State → Prop} (hact : ∀ s e, P s → P (applyEvent s e)) (s : State)
    (h : P (s.setEnv s.env.tail)) : P (atBoundary s) := by
  unfold atBoundary
  generalize s.setEnv s.env.tail = u at h
  induction (nextBoundary s).events generalizing u with
  | nil => exact h
  | cons e rest ih => exact ih _ (hact u e h)

/-! ### One step -/

/-- The request served is one of those pending, and the others stay. -/
theorem chooseRequest_some {pending : List CounterReq} {serve : Nat} {r : CounterReq} {rest : List CounterReq}
    (h : chooseRequest pending serve = some (r, rest)) : pending.Perm (r :: rest) := by
  unfold chooseRequest at h
  split at h
  · rename_i q hq
    obtain ⟨hlt, hget⟩ := List.getElem?_eq_some_iff.mp hq
    obtain ⟨rfl, rfl⟩ : q = r ∧ pending.eraseIdx (serve % pending.length) = rest := by simpa using h
    rw [← hget]
    exact (List.getElem_cons_eraseIdx_perm hlt).symm
  · cases h

/-- No request is served only when none is pending. -/
theorem chooseRequest_none {pending : List CounterReq} {serve : Nat} (h : chooseRequest pending serve = none) :
    pending = [] := by
  unfold chooseRequest at h
  split at h
  · cases h
  · rename_i hq
    rw [List.getElem?_eq_none_iff] at hq
    by_contra hne
    exact absurd (Nat.mod_lt serve (List.length_pos_iff.mpr hne)) (by omega)

/-- Everything a step that goes on can have done. -/
theorem step_cases {s t : State} (h : step s = .next t) :
    ((nextBoundary s).goj = true ∧ t = goj (atBoundary s))
      ∨ ((nextBoundary s).goj = false ∧ ∃ r rest, (atBoundary s).pending.Perm (r :: rest)
          ∧ t = doSequence ((atBoundary s).setPending rest) r)
      ∨ (∃ i, TakesInterrupt s i ∧ t = vectorTo (atBoundary s) i)
      ∨ (RunsInstruction s
          ∧ exec (decode (atBoundary s).ext (atBoundary s).blit (atBoundary s).b) (atBoundary s) = .next t) := by
  unfold step stepCycle at h
  dsimp only at h
  split at h
  · rename_i hg
    injection h with h
    exact .inl ⟨hg, h.symm⟩
  · rename_i hg
    have hg : (nextBoundary s).goj = false := by simpa using hg
    split at h
    · rename_i r rest hr
      injection h with h
      exact .inr (.inl ⟨hg, r, rest, chooseRequest_some hr, h.symm⟩)
    · rename_i hn
      unfold interruptOrExecute at h
      split at h
      · rename_i i hi
        injection h with h
        exact .inr (.inr (.inl ⟨i, ⟨hg, chooseRequest_none hn, hi⟩, h.symm⟩))
      · rename_i hi
        exact .inr (.inr (.inr ⟨⟨hg, chooseRequest_none hn, hi⟩, h⟩))

end Sys2Proof.Machine
end

