-- ==== Sys2Proof/Laws/Encoding.lean ====
section
/-! SUPPORT. The words of the three formats as sums, the form of the "octal" columns of 30_encoding.md R154 and R155. -/

namespace Sys2Proof.Machine

theorem word12_eq (code : BitVec 3) (k : Addr) : word12 code k = (code.setWidth 15 <<< 12) + operand12 k := by
  apply BitVec.eq_of_toNat_eq
  have h1 := code.isLt
  have h2 := k.isLt
  simp only [word12, operand12, BitVec.toNat_append, BitVec.toNat_add, BitVec.toNat_shiftLeft, BitVec.toNat_setWidth]
  rw [← Nat.shiftLeft_add_eq_or_of_lt h2]
  simp only [Nat.shiftLeft_eq]; omega

theorem word10_eq (code : BitVec 3) (qc : BitVec 2) (k : EAddr) :
    word10 code qc k = (code.setWidth 15 <<< 12) + (qc.setWidth 15 <<< 10) + operand10 k := by
  apply BitVec.eq_of_toNat_eq
  have h1 := code.isLt
  have h2 := k.isLt
  have h3 := qc.isLt
  have h4 : qc.toNat <<< 10 ||| k.toNat < 2 ^ 12 := by
    rw [← Nat.shiftLeft_add_eq_or_of_lt h2, Nat.shiftLeft_eq]; omega
  simp only [word10, operand10, BitVec.toNat_append, BitVec.toNat_add, BitVec.toNat_shiftLeft, BitVec.toNat_setWidth]
  rw [← Nat.shiftLeft_add_eq_or_of_lt h4, ← Nat.shiftLeft_add_eq_or_of_lt h2]
  simp only [Nat.shiftLeft_eq]; omega

theorem word9_eq (pc : BitVec 3) (c : ChanNo) : word9 pc c = (pc.setWidth 15 <<< 9) + operand9 c := by
  apply BitVec.eq_of_toNat_eq
  have h1 := pc.isLt
  have h2 := c.isLt
  have h4 : pc.toNat <<< 9 ||| c.toNat < 2 ^ 12 := by
    rw [← Nat.shiftLeft_add_eq_or_of_lt h2, Nat.shiftLeft_eq]; omega
  simp only [word9, operand9, BitVec.toNat_append, BitVec.toNat_add, BitVec.toNat_shiftLeft, BitVec.toNat_setWidth]
  rw [← Nat.shiftLeft_add_eq_or_of_lt h4, ← Nat.shiftLeft_add_eq_or_of_lt h2]
  simp only [Nat.shiftLeft_eq, BitVec.toNat_zero]; omega

theorem hasWord12 {i : Instr} {ext : Bool} {code : BitVec 3} {k : Addr} {w : Word} (h1 : extOf i = ext)
    (h2 : encode i = word12 code k) (h3 : w = code.setWidth 15 <<< 12) : HasWord i ext (w + operand12 k) :=
  ⟨h1, by rw [h2, word12_eq, h3]⟩

theorem hasWord10 {i : Instr} {ext : Bool} {code : BitVec 3} {qc : BitVec 2} {k : EAddr} {w : Word}
    (h1 : extOf i = ext) (h2 : encode i = word10 code qc k)
    (h3 : w = (code.setWidth 15 <<< 12) + (qc.setWidth 15 <<< 10)) : HasWord i ext (w + operand10 k) :=
  ⟨h1, by rw [h2, word10_eq, h3]⟩

theorem hasWord9 {i : Instr} {ext : Bool} {pc : BitVec 3} {c : ChanNo} {w : Word} (h1 : extOf i = ext)
    (h2 : encode i = word9 pc c) (h3 : w = pc.setWidth 15 <<< 9) : HasWord i ext (w + operand9 c) :=
  ⟨h1, by rw [h2, word9_eq, h3]⟩

end Sys2Proof.Machine
end

