-- ==== Sys2Proof/Laws/PerInstr.lean ====
section
/-! SUPPORT. Per-instruction lemmas: the row an alias or a synonym names has the same word under the same Extracode flag
(30_encoding.md R158). -/

namespace Sys2Proof.Laws

/-- The instruction and the one it names have one encoding, and naming again gives nothing new. -/
def SameWord.Statement (i : Instr) : Prop :=
  encode i.canonical = encode i ∧ extOf i.canonical = extOf i ∧ i.canonical.canonical = i.canonical

theorem SameWord.tc (k : Addr) : SameWord.Statement (.tc k) := ⟨rfl, rfl, rfl⟩
theorem SameWord.ccs (k : EAddr) : SameWord.Statement (.ccs k) := ⟨rfl, rfl, rfl⟩
theorem SameWord.tcf (k : Addr) : SameWord.Statement (.tcf k) := ⟨rfl, rfl, rfl⟩
theorem SameWord.das (f : EAddr) : SameWord.Statement (.das f) := ⟨rfl, rfl, rfl⟩
theorem SameWord.lxch (k : EAddr) : SameWord.Statement (.lxch k) := ⟨rfl, rfl, rfl⟩
theorem SameWord.incr (k : EAddr) : SameWord.Statement (.incr k) := ⟨rfl, rfl, rfl⟩
theorem SameWord.ads (k : EAddr) : SameWord.Statement (.ads k) := ⟨rfl, rfl, rfl⟩
theorem SameWord.ca (k : Addr) : SameWord.Statement (.ca k) := ⟨rfl, rfl, rfl⟩
theorem SameWord.cs (k : Addr) : SameWord.Statement (.cs k) := ⟨rfl, rfl, rfl⟩
theorem SameWord.index (k : EAddr) : SameWord.Statement (.index k) := ⟨rfl, rfl, rfl⟩
theorem SameWord.dxch (f : EAddr) : SameWord.Statement (.dxch f) := ⟨rfl, rfl, rfl⟩
theorem SameWord.ts (k : EAddr) : SameWord.Statement (.ts k) := ⟨rfl, rfl, rfl⟩
theorem SameWord.xch (k : EAddr) : SameWord.Statement (.xch k) := ⟨rfl, rfl, rfl⟩
theorem SameWord.ad (k : Addr) : SameWord.Statement (.ad k) := ⟨rfl, rfl, rfl⟩
theorem SameWord.mask (k : Addr) : SameWord.Statement (.mask k) := ⟨rfl, rfl, rfl⟩
theorem SameWord.read (c : ChanNo) : SameWord.Statement (.read c) := ⟨rfl, rfl, rfl⟩
theorem SameWord.write (c : ChanNo) : SameWord.Statement (.write c) := ⟨rfl, rfl, rfl⟩
theorem SameWord.rand (c : ChanNo) : SameWord.Statement (.rand c) := ⟨rfl, rfl, rfl⟩
theorem SameWord.wand (c : ChanNo) : SameWord.Statement (.wand c) := ⟨rfl, rfl, rfl⟩
theorem SameWord.ror (c : ChanNo) : SameWord.Statement (.ror c) := ⟨rfl, rfl, rfl⟩
theorem SameWord.wor (c : ChanNo) : SameWord.Statement (.wor c) := ⟨rfl, rfl, rfl⟩
theorem SameWord.rxor (c : ChanNo) : SameWord.Statement (.rxor c) := ⟨rfl, rfl, rfl⟩
theorem SameWord.edrupt (c : ChanNo) : SameWord.Statement (.edrupt c) := ⟨rfl, rfl, rfl⟩
theorem SameWord.dv (k : EAddr) : SameWord.Statement (.dv k) := ⟨rfl, rfl, rfl⟩
theorem SameWord.bzf (k : Addr) : SameWord.Statement (.bzf k) := ⟨rfl, rfl, rfl⟩
theorem SameWord.msu (k : EAddr) : SameWord.Statement (.msu k) := ⟨rfl, rfl, rfl⟩
theorem SameWord.qxch (k : EAddr) : SameWord.Statement (.qxch k) := ⟨rfl, rfl, rfl⟩
theorem SameWord.aug (k : EAddr) : SameWord.Statement (.aug k) := ⟨rfl, rfl, rfl⟩
theorem SameWord.dim (k : EAddr) : SameWord.Statement (.dim k) := ⟨rfl, rfl, rfl⟩
theorem SameWord.dca (f : Addr) : SameWord.Statement (.dca f) := ⟨rfl, rfl, rfl⟩
theorem SameWord.dcs (f : Addr) : SameWord.Statement (.dcs f) := ⟨rfl, rfl, rfl⟩
theorem SameWord.indexExt (k : Addr) : SameWord.Statement (.indexExt k) := ⟨rfl, rfl, rfl⟩
theorem SameWord.su (k : EAddr) : SameWord.Statement (.su k) := ⟨rfl, rfl, rfl⟩
theorem SameWord.bzmf (k : Addr) : SameWord.Statement (.bzmf k) := ⟨rfl, rfl, rfl⟩
theorem SameWord.mp (k : Addr) : SameWord.Statement (.mp k) := ⟨rfl, rfl, rfl⟩
theorem SameWord.relint : SameWord.Statement .relint := ⟨by decide, rfl, rfl⟩
theorem SameWord.inhint : SameWord.Statement .inhint := ⟨by decide, rfl, rfl⟩
theorem SameWord.extend : SameWord.Statement .extend := ⟨by decide, rfl, rfl⟩
theorem SameWord.resume : SameWord.Statement .resume := ⟨by decide, rfl, rfl⟩
theorem SameWord.xxalq : SameWord.Statement .xxalq := ⟨by decide, rfl, rfl⟩
theorem SameWord.xlq : SameWord.Statement .xlq := ⟨by decide, rfl, rfl⟩
theorem SameWord.returnQ : SameWord.Statement .returnQ := ⟨by decide, rfl, rfl⟩
theorem SameWord.noop : SameWord.Statement .noop := ⟨by decide, rfl, rfl⟩
theorem SameWord.ddoubl : SameWord.Statement .ddoubl := ⟨by decide, rfl, rfl⟩
theorem SameWord.zl : SameWord.Statement .zl := ⟨by decide, rfl, rfl⟩
theorem SameWord.com : SameWord.Statement .com := ⟨by decide, rfl, rfl⟩
theorem SameWord.dtcf : SameWord.Statement .dtcf := ⟨by decide, rfl, rfl⟩
theorem SameWord.dtcb : SameWord.Statement .dtcb := ⟨by decide, rfl, rfl⟩
theorem SameWord.ovsk : SameWord.Statement .ovsk := ⟨by decide, rfl, rfl⟩
theorem SameWord.tcaa : SameWord.Statement .tcaa := ⟨by decide, rfl, rfl⟩
theorem SameWord.double : SameWord.Statement .double := ⟨by decide, rfl, rfl⟩
theorem SameWord.zq : SameWord.Statement .zq := ⟨by decide, rfl, rfl⟩
theorem SameWord.dcom : SameWord.Statement .dcom := ⟨by decide, rfl, rfl⟩
theorem SameWord.square : SameWord.Statement .square := ⟨by decide, rfl, rfl⟩
theorem SameWord.tcr (k : Addr) : SameWord.Statement (.tcr k) := ⟨rfl, rfl, rfl⟩
theorem SameWord.cae (k : Addr) : SameWord.Statement (.cae k) := ⟨rfl, rfl, rfl⟩
theorem SameWord.caf (k : Addr) : SameWord.Statement (.caf k) := ⟨rfl, rfl, rfl⟩
theorem SameWord.ndx (k : EAddr) : SameWord.Statement (.ndx k) := ⟨rfl, rfl, rfl⟩
theorem SameWord.msk (k : Addr) : SameWord.Statement (.msk k) := ⟨rfl, rfl, rfl⟩
theorem SameWord.ndxExt (k : Addr) : SameWord.Statement (.ndxExt k) := ⟨rfl, rfl, rfl⟩

end Sys2Proof.Laws
end

