-- ==== Sys2Proof/Tests/Slice0.lean ====
section
/-! SUPPORT. Tests. Expected values come from the vectors V… of spec/95_test_vectors.md and spec/96_test_vectors_arithmetic.md
and from the examples of the rules; words of instructions are written out from the encodings of 30_encoding.md. -/

namespace Sys2Proof.Tests

open Sys2Proof.Machine

/-! ### Building states -/

/-- The state in which the word `w`, fetched from 0o4100, is about to run (95_test_vectors.md, section 0). -/
def running (ext : Bool) (w : Word) : State :=
  { State.reset with b := w, z := 0o4101#12, ext := ext }

/-- One cell of bank E0 set. -/
def withCell (s : State) (off : EOff) (w : Word) : State := eraseWrite s 0#3 off w

/-- One word of fixed-fixed memory set. -/
def withFixed (s : State) (k : Nat) (w : Word) : State := { s with rope := s.rope.write k w }

/-- The environment acts as `b` at the next boundary. -/
def withBoundary (s : State) (b : Boundary) : State := { s with env := [b] }

/-- The answer is a next state with the property. -/
def answers (r : Result) (p : State → Bool) : Bool :=
  match r with
  | .next t => p t
  | _ => false

/-- The answer is a refusal for address field 0, with this mnemonic. -/
def refuses (r : Result) (name : String) : Bool :=
  match r with
  | .refused (.dpFieldZero n) => n == name
  | _ => false

/-! ### Well-formedness: a term each check refuses -/

theorem test_wf_tcf_refuses_erasable : (Instr.tcf 0o1777#12).wellFormed = false := by decide
theorem test_wf_bzf_refuses_erasable : (Instr.bzf 0o1777#12).wellFormed = false := by decide
theorem test_wf_bzmf_refuses_erasable : (Instr.bzmf 0o1777#12).wellFormed = false := by decide
theorem test_wf_cae_refuses_fixed : (Instr.cae 0o2000#12).wellFormed = false := by decide
theorem test_wf_caf_refuses_erasable : (Instr.caf 0o1777#12).wellFormed = false := by decide
theorem test_wf_accepts : (Instr.tcf 0o2000#12).wellFormed = true ∧ (Instr.cae 0o1777#12).wellFormed = true
    ∧ (Instr.caf 0o2000#12).wellFormed = true := by decide

/-! ### Decoding: a word written out for every constructor the decoder gives (R154, R155, R157) -/

theorem test_decode_basic_transfer : decode false false 0o04200#15 = .tc 0o4200#12
    ∧ decode false false 0o10100#15 = .ccs 0o100#10 ∧ decode false false 0o12345#15 = .tcf 0o2345#12 := by decide
theorem test_decode_basic_code2 : decode false false 0o21777#15 = .das 0o1777#10
    ∧ decode false false 0o22007#15 = .lxch 7#10 ∧ decode false false 0o24025#15 = .incr 0o25#10
    ∧ decode false false 0o26100#15 = .ads 0o100#10 := by decide
theorem test_decode_basic_load : decode false false 0o37777#15 = .ca 0o7777#12
    ∧ decode false false 0o47777#15 = .cs 0o7777#12 ∧ decode false false 0o67777#15 = .ad 0o7777#12
    ∧ decode false false 0o77777#15 = .mask 0o7777#12 := by decide
theorem test_decode_basic_code5 : decode false false 0o51777#15 = .index 0o1777#10
    ∧ decode false false 0o52071#15 = .dxch 0o71#10 ∧ decode false false 0o54100#15 = .ts 0o100#10
    ∧ decode false false 0o56000#15 = .xch 0#10 := by decide
theorem test_decode_channel : decode true false 0o00777#15 = .read 0o777#9 ∧ decode true false 0o01013#15 = .write 0o13#9
    ∧ decode true false 0o02007#15 = .rand 7#9 ∧ decode true false 0o03005#15 = .wand 5#9
    ∧ decode true false 0o04033#15 = .ror 0o33#9 ∧ decode true false 0o05013#15 = .wor 0o13#9
    ∧ decode true false 0o06030#15 = .rxor 0o30#9 ∧ decode true false 0o07777#15 = .edrupt 0o777#9 := by decide
theorem test_decode_extra_low : decode true false 0o11777#15 = .dv 0o1777#10 ∧ decode true false 0o12000#15 = .bzf 0o2000#12
    ∧ decode true false 0o20000#15 = .msu 0#10 ∧ decode true false 0o22007#15 = .qxch 7#10
    ∧ decode true false 0o24000#15 = .aug 0#10 ∧ decode true false 0o26031#15 = .dim 0o31#10 := by decide
theorem test_decode_extra_high : decode true false 0o37777#15 = .dca 0o7777#12 ∧ decode true false 0o40001#15 = .dcs 1#12
    ∧ decode true false 0o50017#15 = .indexExt 0o17#12 ∧ decode true false 0o61777#15 = .su 0o1777#10
    ∧ decode true false 0o62000#15 = .bzmf 0o2000#12 ∧ decode true false 0o77777#15 = .mp 0o7777#12 := by decide
theorem test_decode_special : decode false false 0o00003#15 = .relint ∧ decode false false 0o00004#15 = .inhint
    ∧ decode false false 0o00006#15 = .extend ∧ decode false false 0o50017#15 = .resume := by decide
theorem test_decode_literal : decode false true 0o00003#15 = .tc 3#12 ∧ decode false true 0o00004#15 = .tc 4#12
    ∧ decode false true 0o00006#15 = .tc 6#12 ∧ decode false true 0o50017#15 = .index 0o17#10 := by decide

/-- The words of the rows of kind alias and synonym (R158) decode to the instruction each row names. -/
theorem test_decode_aliases : [Instr.xxalq, .xlq, .returnQ, .noop, .ddoubl, .zl, .com, .dtcf, .dtcb, .ovsk, .tcaa, .double,
    .zq, .dcom, .square, .tcr 0o4200#12, .cae 0o100#12, .caf 0o4200#12, .ndx 0o100#10, .msk 0o100#12,
    .ndxExt 0o17#12].all (fun i => decide (decode (extOf i) false (encode i) = i.canonical)) = true := by decide
theorem test_alias_words : encode .xxalq = 0o00000#15 ∧ encode .returnQ = 0o00002#15 ∧ encode .ddoubl = 0o20001#15
    ∧ encode .dtcf = 0o52005#15 ∧ encode .tcaa = 0o54005#15 ∧ encode .dcom = 0o40001#15 := by decide
theorem test_table_word : decodeTableWord 16 0o104200 = some (.ror 0o200#9) := by decide
theorem test_table_word_refuses : decodeTableWord 15 0 = none ∧ decodeTableWord 16 0o200000 = none := by decide

/-! ### Numbers and memory -/

/-- Table 2.1c: the sums that wrap, and -0. -/
theorem test_add_wraps : add1c16 0o177777#16 0o000001#16 = 0o000001#16 ∧ add1c16 0o140000#16 0o140000#16 = 0o100001#16
    ∧ add1c16 0o000005#16 0o177772#16 = 0o177777#16 := by decide
/-- Table 2.1a. -/
theorem test_overflow_correction : ovc 0o100000#16 = 0o40000#15 ∧ ovf 0o100000#16 = .neg ∧ ovc 0o077777#16 = 0o37777#15
    ∧ ovf 0o077777#16 = .pos := by decide
/-- V20-7, V20-17. -/
theorem test_bb : regRead15 { State.reset with fbank := 0o25#5, ebank := 5#3 } .bb = 0o52005#15
    ∧ (regWrite15 State.reset .bb 0o52003#15).ebank = 3#3 ∧ (regWrite15 State.reset .bb 0o52003#15).fbank = 0o25#5 := by
  decide
/-- V20-34, V20-37, V20-40, V20-43. -/
theorem test_editing : edit 0#3 0o20#8 0o12345#15 = 0o45162#15 ∧ edit 0#3 0o21#8 0o12345#15 = 0o05162#15
    ∧ edit 0#3 0o22#8 0o12345#15 = 0o24712#15 ∧ edit 0#3 0o23#8 0o12345#15 = 0o00051#15 := by decide
/-- V20-27, V20-28, V20-29 and the banks that do not exist (V20-30, V20-31). -/
theorem test_superbank : resolve { State.reset with fbank := 0o30#5, sbank := 4#3 } 0o2005#12 = .fixed 0o40 5#10
    ∧ resolve { State.reset with fbank := 0o33#5, sbank := 4#3 } 0o3777#12 = .fixed 0o43 0o1777#10
    ∧ resolve { State.reset with fbank := 0o33#5, sbank := 3#3 } 0o2000#12 = .fixed 0o33 0#10
    ∧ resolve { State.reset with fbank := 0o34#5, sbank := 4#3 } 0o2000#12 = .noRope
    ∧ resolve { State.reset with fbank := 0o30#5, sbank := 6#3 } 0o2000#12 = .noRope := by decide

/-! ### Control transfer -/

/-- V41-1. -/
theorem test_tc : answers (step (withFixed (running false 0o04200#15) 0o4200 0o30100#15))
    (fun t => t.q == 0o004101#16 && t.z == 0o4201#12 && t.b == 0o30100#15) = true := by decide
theorem test_tcr : answers (exec (.tcr 0o4200#12) (running false 0#15)) (fun t => t.q == 0o004101#16 && t.z == 0o4201#12) = true := by
  decide
/-- V41-5. -/
theorem test_xxalq : answers (exec .xxalq { running false 0#15 with a := 0o140006#16 })
    (fun t => t.q == 0o004101#16 && t.z == 1#12 && t.b == 0o40006#15) = true := by decide
/-- V41-6. -/
theorem test_xlq : answers (exec .xlq { running false 1#15 with l := 0o30100#15 })
    (fun t => t.z == 2#12 && t.b == 0o30100#15) = true := by decide
/-- V41-8: the word executed is the old Q. -/
theorem test_return : answers (exec .returnQ { running false 2#15 with q := 0o140002#16 })
    (fun t => t.q == 0o004101#16 && t.z == 3#12 && t.b == 0o40002#15) = true := by decide
/-- V41-13: Z wraps, Q stays. -/
theorem test_tcf_wraps : answers (step (withFixed (running false 0o17777#15) 0o7777 6#15))
    (fun t => t.z == 0#12 && t.b == 6#15 && t.q == 0#16) = true := by decide
/-- V41-15: overflow in A stays. -/
theorem test_noop : answers (exec .noop { running false 0#15 with a := 0o040001#16 })
    (fun t => t.a == 0o040001#16 && t.z == 0o4102#12) = true := by decide
/-- V41-17 and V41-19: -0 is zero, +0 with overflow is not. -/
theorem test_bzf : answers (exec (.bzf 0o4500#12) { running true 0#15 with a := 0o177777#16 })
      (fun t => t.z == 0o4501#12 && t.mct == 3) = true
    ∧ answers (exec (.bzf 0o4500#12) { running true 0#15 with a := 0o040000#16 })
      (fun t => t.z == 0o4102#12 && t.mct == 4) = true := by decide
/-- V41-24 and V41-25. -/
theorem test_bzmf : answers (exec (.bzmf 0o4500#12) { running true 0#15 with a := 0o100005#16 }) (fun t => t.z == 0o4501#12) = true
    ∧ answers (exec (.bzmf 0o4500#12) { running true 0#15 with a := 0o040000#16 }) (fun t => t.z == 0o4102#12) = true := by
  decide
/-- V41-29 and V41-30. -/
theorem test_ccs_signs : answers (exec (.ccs 0o100#10) (withCell (running false 0#15) 0o100#8 5#15))
      (fun t => t.a == 4#16 && t.z == 0o4102#12) = true
    ∧ answers (exec (.ccs 0o100#10) (withCell (running false 0#15) 0o100#8 0o77772#15))
      (fun t => t.a == 4#16 && t.z == 0o4104#12) = true := by decide
/-- V41-32, V41-33 and V41-40: the zeros, and negative overflow. -/
theorem test_ccs_zeros : answers (exec (.ccs 0o100#10) (running false 0#15)) (fun t => t.a == 0#16 && t.z == 0o4103#12) = true
    ∧ answers (exec (.ccs 0#10) { running false 0#15 with a := 0o177777#16 }) (fun t => t.a == 0#16 && t.z == 0o4105#12) = true
    ∧ answers (exec (.ccs 0#10) { running false 0#15 with a := 0o100000#16 })
      (fun t => t.a == 0o077776#16 && t.z == 0o4104#12) = true := by decide

/-! ### Load, store and exchange -/

/-- V42-1 and V42-4: sign extension, and the second edit of CYR. -/
theorem test_ca : answers (exec (.ca 0o100#12) (withCell (running false 0#15) 0o100#8 0o40000#15)) (fun t => t.a == 0o140000#16) = true
    ∧ answers (exec (.ca 0o20#12) (withCell (running false 0#15) 0o20#8 3#15))
      (fun t => t.a == 3#16 && eraseRead t 0#3 0o20#8 == 0o40001#15) = true := by decide
theorem test_cae : answers (exec (.cae 2#12) { running false 0#15 with q := 0o040001#16 }) (fun t => t.a == 0o040001#16) = true := by
  decide
theorem test_caf : answers (exec (.caf 0o4200#12) (withFixed (running false 0#15) 0o4200 0o77776#15))
    (fun t => t.a == 0o177776#16) = true := by decide
/-- V42-21. -/
theorem test_cs : answers (exec (.cs 0o100#12) (withCell (running false 0#15) 0o100#8 5#15)) (fun t => t.a == 0o177772#16) = true := by
  decide
/-- V42-26. -/
theorem test_com : answers (exec .com { running false 0#15 with a := 0o040000#16 }) (fun t => t.a == 0o137777#16) = true := by decide
/-- V42-28 and V42-31. -/
theorem test_dca : answers (exec (.dca 2#12) { running true 0#15 with a := 0o011111#16, q := 0o140001#16 })
      (fun t => t.a == 0o140001#16 && t.l == 0o40001#15) = true
    ∧ answers (exec (.dca 0o21#12) (withCell (withCell (running true 0#15) 0o20#8 3#15) 0o21#8 0o40002#15))
      (fun t => t.a == 3#16 && t.l == 0o40002#15 && eraseRead t 0#3 0o21#8 == 0o60001#15) = true := by decide
/-- V42-34, and V42-35 for the pair (L, Q): A takes the complement of Q (log 24). -/
theorem test_dcs : answers (exec (.dcs 0o71#12) (withCell (withCell (running true 0#15) 0o70#8 1#15) 0o71#8 2#15))
      (fun t => t.a == 0o177776#16 && t.l == 0o77775#15) = true
    ∧ answers (exec (.dcs 2#12) { running true 0#15 with q := 0o040001#16 })
      (fun t => t.a == 0o137776#16 && t.l == 0o77776#15) = true := by decide
/-- V42-37. -/
theorem test_dcom : answers (exec .dcom { running true 0#15 with a := 0o040001#16 })
    (fun t => t.a == 0o137776#16 && t.l == 0o77777#15) = true := by decide
/-- V42-40 and V42-49: the skip, and the store of the old A to Q. -/
theorem test_ts : answers (exec (.ts 0o100#10) { running false 0#15 with a := 0o040002#16 })
      (fun t => t.a == 1#16 && t.z == 0o4103#12 && eraseRead t 0#3 0o100#8 == 2#15) = true
    ∧ answers (exec (.ts 2#10) { running false 0#15 with a := 0o040001#16 })
      (fun t => t.a == 1#16 && t.q == 0o040001#16) = true := by decide
/-- V42-43. -/
theorem test_ovsk : answers (exec .ovsk { running false 0#15 with a := 0o100000#16 })
    (fun t => t.a == 0o100000#16 && t.z == 0o4103#12) = true := by decide
/-- V42-47. -/
theorem test_tcaa : answers (exec .tcaa (withFixed { running false 0#15 with a := 0o044321#16 } 0o4321 0o30100#15))
    (fun t => t.a == 1#16 && t.z == 0o4322#12 && t.b == 0o30100#15) = true := by decide
/-- V42-64 and V42-67. -/
theorem test_xch : answers (exec (.xch 0o100#10) (withCell { running false 0#15 with a := 0o040003#16 } 0o100#8 0o77776#15))
      (fun t => t.a == 0o177776#16 && eraseRead t 0#3 0o100#8 == 3#15) = true
    ∧ answers (exec (.xch 5#10) { running false 0#15 with a := 0o004321#16 })
      (fun t => t.a == 0o004101#16 && t.z == 0o4322#12) = true := by decide
/-- V42-70 and V42-71. -/
theorem test_lxch : answers (exec (.lxch 0#10) { running false 0#15 with a := 0o040001#16, l := 0o77776#15 })
      (fun t => t.a == 0o177776#16 && t.l == 1#15) = true
    ∧ answers (exec (.lxch 2#10) { running false 0#15 with l := 0o40001#15, q := 0o040002#16 })
      (fun t => t.l == 2#15 && t.q == 0o140001#16) = true := by decide
/-- V42-73. -/
theorem test_zl : answers (exec .zl { running false 0#15 with l := 0o54321#15 }) (fun t => t.l == 0#15) = true := by decide
/-- V42-76. -/
theorem test_qxch : answers (exec (.qxch 0#10) { running true 0#15 with a := 0o137776#16, q := 0o040001#16 })
    (fun t => t.a == 0o040001#16 && t.q == 0o137776#16) = true := by decide
/-- V42-78. -/
theorem test_zq : answers (exec .zq { running true 0#15 with q := 0o004101#16 }) (fun t => t.q == 0#16) = true := by decide
/-- V42-82 and V42-79. -/
theorem test_dxch : answers (exec (.dxch 2#10) { running false 0#15 with a := 0o040001#16, l := 0o40002#15, q := 0o100003#16 })
      (fun t => t.a == 0o100003#16 && t.l == 1#15 && t.q == 0o140002#16) = true
    ∧ answers (exec (.dxch 0o71#10) (withCell { running false 0#15 with a := 1#16, l := 2#15 } 0o71#8 4#15))
      (fun t => t.a == 0#16 && t.l == 4#15 && eraseRead t 0#3 0o70#8 == 1#15 && eraseRead t 0#3 0o71#8 == 2#15) = true := by
  decide
/-- V42-85, without the next word. -/
theorem test_dtcf : answers (exec .dtcf { running false 0#15 with z := 0o2101#12, a := 0o024000#16, l := 0o02345#15, fbank := 5#5 })
    (fun t => t.a == 0o012000#16 && t.l == 0o02101#15 && t.fbank == 0o12#5 && t.z == 0o2346#12) = true := by decide
/-- V42-86, without the next word. -/
theorem test_dtcb : answers (exec .dtcb
      { running false 0#15 with z := 0o2101#12, a := 0o003000#16, l := 0o30004#15, ebank := 3#3, fbank := 5#5 })
    (fun t => t.a == 0o002101#16 && t.l == 0o12003#15 && t.ebank == 4#3 && t.fbank == 0o14#5 && t.z == 0o3001#12) = true := by
  decide

/-! ### Arithmetic and logic -/

/-- V43-2 and V43-9. -/
theorem test_ad : answers (exec (.ad 0o100#12) (withCell { running false 0#15 with a := 0o037777#16 } 0o100#8 1#15))
      (fun t => t.a == 0o040000#16) = true
    ∧ answers (exec (.ad 2#12) { running false 0#15 with a := 1#16, q := 0o077777#16 }) (fun t => t.a == 0o100000#16) = true := by
  decide
/-- V43-19. -/
theorem test_double : answers (exec .double { running false 0#15 with a := 0o140000#16 }) (fun t => t.a == 0o100001#16) = true := by
  decide
/-- V43-21 and V43-23. -/
theorem test_ads : answers (exec (.ads 0o100#10) (withCell { running false 0#15 with a := 0o037777#16 } 0o100#8 1#15))
      (fun t => t.a == 0o040000#16 && eraseRead t 0#3 0o100#8 == 0#15) = true
    ∧ answers (exec (.ads 2#10) { running false 0#15 with a := 0o037777#16, q := 1#16 })
      (fun t => t.a == 0o040000#16 && t.q == 0o040000#16) = true := by decide
/-- V43-29. -/
theorem test_su : answers (exec (.su 0o100#10) (withCell { running true 0#15 with a := 5#16 } 0o100#8 0o77775#15))
    (fun t => t.a == 7#16) = true := by decide
/-- V43-37 and V43-45. -/
theorem test_msu : answers (exec (.msu 0o100#10) (withCell { running true 0#15 with a := 3#16 } 0o100#8 5#15))
      (fun t => t.a == 0o177775#16) = true
    ∧ answers (exec (.msu 2#10) { running true 0#15 with a := 0o100000#16 }) (fun t => t.a == 0o077777#16) = true := by decide
/-- V43-47 and V43-50. -/
theorem test_das : answers (exec (.das 0o101#10)
        (withCell (withCell { running false 0#15 with a := 1#16, l := 0o37777#15 } 0o100#8 1#15) 0o101#8 1#15))
      (fun t => t.a == 0#16 && t.l == 0#15 && eraseRead t 0#3 0o100#8 == 3#15 && eraseRead t 0#3 0o101#8 == 0#15) = true
    ∧ answers (exec (.das 0o101#10)
        (withCell (withCell { running false 0#15 with a := 0o140000#16, l := 0o77777#15 } 0o100#8 0o77776#15) 0o101#8 0o77777#15))
      (fun t => t.a == 0o177776#16 && eraseRead t 0#3 0o100#8 == 0o77777#15) = true := by decide
/-- V43-59. -/
theorem test_ddoubl : answers (exec .ddoubl { running false 0#15 with l := 0o57777#15 })
    (fun t => t.a == 0o177776#16 && t.l == 0o77777#15) = true := by decide
/-- V43-70 and V43-76: the interrupt is that of the counter's cell, not of its address. -/
theorem test_incr : answers (exec (.incr 0o26#10) (withCell (running false 0#15) 0o26#8 0o37777#15))
      (fun t => eraseRead t 0#3 0o26#8 == 0#15 && t.ruptReq.t3rupt) = true
    ∧ answers (exec (.incr 0o1426#10) (eraseWrite { running false 0#15 with ebank := 1#3 } 1#3 0o26#8 0o37777#15))
      (fun t => eraseRead t 1#3 0o26#8 == 0#15 && t.ruptReq == Latches.clear) = true := by decide
/-- V43-82 and V43-90. -/
theorem test_aug : answers (exec (.aug 0o100#10) (withCell (running true 0#15) 0o100#8 0o77777#15))
      (fun t => eraseRead t 0#3 0o100#8 == 0o77776#15) = true
    ∧ answers (exec (.aug 0o25#10) (withCell (running true 0#15) 0o25#8 0o40000#15))
      (fun t => eraseRead t 0#3 0o25#8 == 0o77777#15 && t.pending == [.pinc .time2]) = true := by decide
/-- V43-93 and V43-101. -/
theorem test_dim : answers (exec (.dim 0o100#10) (withCell (running true 0#15) 0o100#8 1#15))
      (fun t => eraseRead t 0#3 0o100#8 == 0o77777#15) = true
    ∧ answers (exec (.dim 0#10) { running true 0#15 with a := 0o137777#16 }) (fun t => t.a == 0o140000#16) = true := by decide
/-- V43-106 and V43-110. -/
theorem test_mp : answers (exec (.mp 0o100#12) (withCell { running true 0#15 with a := 0o037777#16 } 0o100#8 0o40000#15))
      (fun t => t.a == 0o140001#16 && t.l == 0o77776#15) = true
    ∧ answers (exec (.mp 0o100#12) (withCell (running true 0#15) 0o100#8 0o77772#15))
      (fun t => t.a == 0o177777#16 && t.l == 0o77777#15) = true := by decide
/-- V43-131; and with overflow in A the instruction still ends, whatever A and L are then (U8). -/
theorem test_square : answers (exec .square { running true 0#15 with a := 0o140000#16 })
      (fun t => t.a == 0o037776#16 && t.l == 1#15) = true
    ∧ answers (exec .square { running true 0#15 with a := 0o040000#16 }) (fun t => t.z == 0o4102#12 && t.freeCount == 1) = true := by
  decide
/-- Rows 2 and 5 of the source's examples of DV (95_test_vectors.md S18). -/
theorem test_dv : answers (exec (.dv 0o100#10)
        (withCell { running true 0#15 with a := 0o017777#16, l := 0o40000#15 } 0o100#8 0o57777#15))
      (fun t => t.a == 0o140003#16 && t.l == 1#15) = true
    ∧ answers (exec (.dv 0o100#10)
        (withCell { running true 0#15 with a := 0o017777#16, l := 0o37777#15 } 0o100#8 0o20000#15))
      (fun t => t.a == 0o037777#16 && t.l == 0o17777#15) = true := by decide
/-- Row 7 of the same, zero by zero; and V43-145, where only A and L are free. -/
theorem test_dv_zero : answers (exec (.dv 0o100#10) { running true 0#15 with l := 0o77777#15 })
      (fun t => t.a == 0o140000#16 && t.l == 0o77777#15) = true
    ∧ answers (exec (.dv 0o100#10) (withCell { running true 0#15 with a := 0o020000#16 } 0o100#8 0o10000#15))
      (fun t => t.z == 0o4102#12 && t.freeCount == 1) = true := by decide
/-- V43-150 and V43-152. -/
theorem test_mask : answers (exec (.mask 0o100#12) (withCell { running false 0#15 with a := 0o152525#16 } 0o100#8 0o70707#15))
      (fun t => t.a == 0o150505#16) = true
    ∧ answers (exec (.mask 2#12) { running false 0#15 with a := 0o040001#16, q := 0o077777#16 })
      (fun t => t.a == 0o040001#16) = true := by decide
theorem test_msk : answers (exec (.msk 1#12) { running false 0#15 with a := 0o177777#16, l := 0o40001#15 })
    (fun t => t.a == 0o140001#16) = true := by decide

/-! ### Channels -/

/-- V44-1 and V44-3. -/
theorem test_read : answers (exec (.read 1#9) { running true 0#15 with l := 0o40001#15 }) (fun t => t.a == 0o140001#16) = true
    ∧ answers (exec (.read 7#9) { running true 0#15 with sbank := 4#3 }) (fun t => t.a == 0o000100#16) = true := by decide
/-- V44-10 and V44-12. -/
theorem test_write : answers (exec (.write 7#9) { running true 0#15 with a := 0o177777#16 }) (fun t => t.sbank == 7#3) = true
    ∧ answers (exec (.write 0o11#9) { running true 0#15 with a := 0o100001#16 })
      (fun t => t.chan == [(0o11, 0o40001#15)] && t.observed == [.chanWrite 0o11#9 0o140001#16]) = true := by decide
/-- V44-14 and V44-16. -/
theorem test_rand : answers (exec (.rand 2#9) { running true 0#15 with a := 0o040001#16, q := 0o140001#16 })
      (fun t => t.a == 0o040001#16) = true
    ∧ answers (exec (.rand 0o30#9) { running true 0#15 with a := 0o040003#16, chan := [(0o30, 0o77777#15)] })
      (fun t => t.a == 3#16) = true := by decide
/-- V44-18 and V44-20. -/
theorem test_wand : answers (exec (.wand 2#9) { running true 0#15 with a := 0o040003#16, q := 0o140001#16 })
      (fun t => t.a == 0o040001#16 && t.q == 0o040001#16) = true
    ∧ answers (exec (.wand 7#9) { running true 0#15 with a := 0o000040#16, sbank := 7#3 })
      (fun t => t.a == 0o000040#16 && t.sbank == 2#3) = true := by decide
/-- V44-22. -/
theorem test_ror : answers (exec (.ror 2#9) { running true 0#15 with a := 3#16, q := 0o040000#16 })
    (fun t => t.a == 0o040003#16) = true := by decide
/-- V44-24 and V44-26. -/
theorem test_wor : answers (exec (.wor 0o13#9) { running true 0#15 with a := 0o140000#16, chan := [(0o13, 3#15)] })
      (fun t => t.a == 0o140003#16 && t.chan == [(0o13, 0o40003#15)]) = true
    ∧ answers (exec (.wor 1#9) { running true 0#15 with a := 0o040001#16, l := 2#15 })
      (fun t => t.a == 3#16 && t.l == 3#15) = true := by decide
/-- V44-29 and V44-30. -/
theorem test_rxor : answers (exec (.rxor 2#9) { running true 0#15 with a := 0o040001#16, q := 0o140001#16 })
      (fun t => t.a == 0o100000#16) = true
    ∧ answers (exec (.rxor 0o30#9) { running true 0#15 with a := 0o040001#16, chan := [(0o30, 0o77777#15)] })
      (fun t => t.a == 0o177776#16) = true := by decide

/-! ### Special control -/

/-- V45-1. -/
theorem test_extend : answers (step (running false 6#15)) (fun t => t.ext && t.z == 0o4102#12) = true := by decide
/-- V45-2. -/
theorem test_inhint : answers (step (running false 4#15)) (fun t => t.inh && !t.ext) = true := by decide
/-- V45-5. -/
theorem test_relint : answers (step { running false 3#15 with inh := true, isr := true }) (fun t => !t.inh && t.isr) = true := by
  decide
/-- V45-9 and V45-18. -/
theorem test_index : answers (exec (.index 0o100#10) (withFixed (withCell (running false 0#15) 0o100#8 0o10000#15) 0o4101 0o30100#15))
      (fun t => t.b == 0o00100#15 && t.blit && t.z == 0o4102#12) = true
    ∧ answers (exec (.index 0o20#10) (withFixed (withCell (running false 0#15) 0o20#8 4#15) 0o4101 0o30100#15))
      (fun t => t.b == 0o30104#15 && eraseRead t 0#3 0o20#8 == 2#15) = true := by decide
theorem test_ndx : answers (exec (.ndx 0#10) (withFixed { running false 0#15 with a := 0o040003#16 } 0o4101 0o02100#15))
    (fun t => t.b == 0o02103#15 && t.blit) = true := by decide
/-- V45-16: the extracode INDEX of 0o17 is no RESUME, and EXT stays. -/
theorem test_index_ext : answers (step (withFixed (withCell (running true 0o50017#15) 0o17#8 5#15) 0o4101 0o70100#15))
    (fun t => t.b == 0o70105#15 && t.blit && t.ext) = true := by decide
theorem test_ndx_ext : answers (exec (.ndxExt 0o4200#12) (withFixed (withFixed (running true 0#15) 0o4200 2#15) 0o4101 0o30071#15))
    (fun t => t.b == 0o30073#15 && t.ext) = true := by decide
/-- V45-21: the upper bits of ZRUPT are dropped. -/
theorem test_resume : answers (step (withCell (withCell { running false 0o50017#15 with isr := true } 0o15#8 0o74103#15) 0o17#8 6#15))
    (fun t => t.z == 0o4103#12 && t.b == 6#15 && !t.isr && !t.blit) = true := by decide
/-- V45-23. -/
theorem test_edrupt : answers (step { running true 0o07777#15 with a := 0o140006#16 })
    (fun t => t.z == 1#12 && t.b == 0o40006#15 && t.isr && eraseRead t 0#3 0o15#8 == 0o04101#15) = true := by decide
/-- U3: the refusals by name. -/
theorem test_field_zero : refuses (exec (.das 0#10) State.reset) "DAS" = true ∧ refuses (exec (.dca 0#12) State.reset) "DCA" = true := by
  decide

/-! ### Sequences, interrupts and GOJ -/

/-- V46-2, V46-14, V46-19. -/
theorem test_counts : (doSequence (withCell State.reset 0o25#8 0o37777#15) (.pinc .time1)).pending = [.pinc .time2]
    ∧ counter (doSequence (withCell State.reset 0o37#8 0o40000#15) (.minc .pipax)) 0o37#8 = 0o77777#15
    ∧ counter (doSequence (withCell State.reset 0o32#8 0o77777#15) (.pcdu .cdux)) 0o32#8 = 0#15 := by decide
/-- V46-26 and V46-33. -/
theorem test_dinc : counter (doSequence (withCell State.reset 0o31#8 1#15) .dinc) 0o31#8 = 0o77777#15
    ∧ (doSequence { State.reset with chan := [(0o13, 0o52525#15)] } .dinc).chan = [(0o13, 0o12525#15)]
    ∧ (doSequence State.reset .dinc).ruptReq.t6rupt = true := by decide
/-- V46-37 and V46-45. -/
theorem test_shifts : counter (doSequence (withCell State.reset 0o45#8 0o52525#15) (.shinc .inlink)) 0o45#8 = 0o25252#15
    ∧ (doSequence (withCell State.reset 0o57#8 0o77777#15) (.shanc .outlink)).ruptReq.downrupt = true := by decide
/-- V60-1. -/
theorem test_interrupt : answers (step { running false 0o30100#15 with ruptReq := Latches.clear.put .t3rupt true })
    (fun t => t.z == 0o4015#12 && t.isr && eraseRead t 0#3 0o15#8 == 0o04101#15 && eraseRead t 0#3 0o17#8 == 0o30100#15
      && t.ruptReq == Latches.clear) = true := by decide
/-- V60-5, V60-11, V60-12 and V60-15. -/
theorem test_interrupt_conditions : interruptPossible { running false 0o30100#15 with a := 0o040000#16 } = false
    ∧ interruptPossible (running false 6#15) = false ∧ interruptPossible (running false 0o50017#15) = true
    ∧ interruptToTake { running false 0o30100#15 with
        ruptReq := ((Latches.clear.put .t3rupt true).put .t4rupt true).put .t6rupt true } = some .t6rupt := by decide
/-- V70-1, in part. -/
theorem test_goj : answers (step (withBoundary (withFixed { running true 0o30100#15 with inh := true, isr := true, blit := true } 0o4000 4#15)
      { goj := true, events := [], serve := 0 }))
    (fun t => t.z == 0o4001#12 && t.b == 4#15 && !t.ext && t.inh && !t.isr && !t.blit) = true := by decide
/-- 10_state.md R78: LOSCALAR overflows into HISCALAR. -/
theorem test_scaler : (advanceScaler { State.reset with chan := [(4, 0o37777#15)] }).chan = [(3, 1#15)] := by decide
/-- A placed row is what the next step runs, from reset: TC 0o4200. -/
theorem test_placed : answers (step (State.reset.withFetchWord 16 0o04200)) (fun t => t.q == 0o004001#16 && t.z == 0o4201#12) = true := by
  decide

/-! ### Witnesses: the hypotheses of the statements are met -/

theorem test_witness_decode_of_encode : (Instr.tcf 0o2345#12).wellFormed = true ∧ (Instr.tcf 0o2345#12).fitsBlit false = true
    ∧ Instr.resume.fitsBlit false = true ∧ (Instr.tc 3#12).fitsBlit true = true := by decide
/-- R551 (3): the environment changes an input channel and no other, and no output channel or register of the CPU (log 11). -/
theorem test_act_channel : chanRead (applyEvent { State.reset with inputChans := [0o30#9] } (.channel 0o30#9 1#15)) 0o30#9 = 1#16
    ∧ applyEvent State.reset (.channel 0o30#9 1#15) = State.reset
    ∧ applyEvent { State.reset with inputChans := [0o13#9] } (.channel 0o13#9 1#15) = { State.reset with inputChans := [0o13#9] }
    ∧ applyEvent { State.reset with inputChans := [2#9] } (.channel 2#9 1#15) = { State.reset with inputChans := [2#9] } := by
  decide
/-- R81, R522: from reset the environment drives channel 0o31, a program's write does not, and the trap lets RUPT10 in. -/
theorem test_act_trap_channel : chanRead (chanWrite State.reset 0o31#9 1#16) 0o31#9 = 0#16
    ∧ (applyEvent (applyEvent State.reset (.channel 0o31#9 1#15)) .handRupt).ruptReq.rupt10 = true
    ∧ (applyEvent State.reset .handRupt).ruptReq.rupt10 = false := by decide
/-- R78, R550: a program's write leaves the scaler as it is, and its count overflows from channel 4 into channel 3. -/
theorem test_act_scaler :
    (chanWrite State.reset 3#9 5#16).chan = [] ∧ (chanWrite { State.reset with chan := [(4, 6#15)] } 4#9 5#16).chan = [(4, 6#15)]
    ∧ (applyEvent { State.reset with chan := [(4, 0o37777#15)] } .scaler).chan = [(3, 1#15)]
    ∧ applyEvent State.reset (.channel 4#9 5#15) = State.reset := by decide
/-- R58: the hand controller counts only while bits 8 and 9 of channel 0o13 are 1 (log 41). -/
theorem test_act_hand_count :
    (applyEvent (chanWrite State.reset 0o13#9 0o600#16) (.count (.minc .rhcy))).pending = [.minc .rhcy]
    ∧ (applyEvent (chanWrite State.reset 0o13#9 0o400#16) (.count (.pinc .rhcy))).pending = []
    ∧ (applyEvent (chanWrite State.reset 0o13#9 0o200#16) (.count (.minc .rhcy))).pending = []
    ∧ counter (doSequence State.reset (.minc .rhcy)) 0o43#8 = 0o77776#15 := by
  decide
theorem test_witness_step_order_acts : State.reset.env = []
    ∧ (withBoundary State.reset { goj := false, events := [.scaler], serve := 0 }).env
      = [{ goj := false, events := [.scaler], serve := 0 }] := by decide
theorem test_witness_step_order_goj :
    (nextBoundary (withBoundary State.reset { goj := true, events := [], serve := 0 })).goj = true := by decide
theorem test_witness_step_order_sequence :
    let s := withBoundary State.reset { goj := false, events := [.count (.pcdu .cdux)], serve := 0 }
    (nextBoundary s).goj = false ∧ (atBoundary s).pending ≠ [] := by decide
theorem test_witness_step_order_interrupt :
    let s := withBoundary State.reset { goj := false, events := [.keyRupt1], serve := 0 }
    (nextBoundary s).goj = false ∧ (atBoundary s).pending = [] ∧ interruptToTake (atBoundary s) = some .keyrupt1 := by decide
theorem test_witness_step_runs_decoded : State.reset.env = [] ∧ State.reset.pending = [] ∧ interruptToTake State.reset = none
    ∧ decodeTableWord 16 0o130100 = some (.dca 0o100#12) := by decide
theorem test_witness_interrupt_entry :
    let s := { running false 0o30100#15 with ruptReq := Latches.clear.put .downrupt true }
    s.env = [] ∧ s.pending = [] ∧ interruptToTake s = some .downrupt := by decide
theorem test_witness_resume_after_interrupt :
    let r := { vectorTo (running false 0o30100#15) .t3rupt with a := 5#16 }
    eraseRead r 0#3 0o15#8 = eraseRead (vectorTo (running false 0o30100#15) .t3rupt) 0#3 0o15#8
      ∧ eraseRead r 0#3 0o17#8 = eraseRead (vectorTo (running false 0o30100#15) .t3rupt) 0#3 0o17#8 := by decide
theorem test_witness_latches_stay :
    let s := { running false 0o30100#15 with ruptReq := Latches.clear.put .uprupt true, inh := true }
    s.ruptReq.get .uprupt = true ∧ answers (step s) (fun t => t.ruptReq.uprupt) = true := by decide
theorem test_witness_latch_taken :
    let s := { running false 0o30100#15 with ruptReq := Latches.clear.put .uprupt true }
    s.ruptReq.get .uprupt = true ∧ ((nextBoundary s).goj = false ∧ (atBoundary s).pending = []
      ∧ interruptToTake (atBoundary s) = some .uprupt) ∧ answers (step s) (fun t => !t.ruptReq.uprupt) = true := by decide
/-- The clauses of `FlagWriters` that no instruction in B meets: GOJ, an interrupt, and a step that writes neither flag. -/
theorem test_witness_flag_writers_others :
    answers (step (withBoundary { running false 4#15 with isr := true } { goj := true, events := [], serve := 0 }))
      (fun t => !t.isr && !t.inh) = true
    ∧ answers (step { running false 0o30100#15 with ruptReq := Latches.clear.put .rupt10 true }) (fun t => t.isr) = true
    ∧ answers (step (withBoundary (running false 4#15) { goj := false, events := [.count (.pcdu .cdux)], serve := 0 }))
      (fun t => !t.inh && !t.isr) = true := by decide
theorem test_witness_flag_writers : answers (step (running false 4#15)) (fun t => t.inh) = true
    ∧ answers (step { running false 3#15 with inh := true }) (fun t => !t.inh) = true
    ∧ answers (step (running true 0o07000#15)) (fun t => t.isr) = true
    ∧ answers (step { running false 0o50017#15 with isr := true }) (fun t => !t.isr) = true := by decide
theorem test_witness_extracode_flag : answers (exec .extend State.reset) (fun t => t.ext && !t.blit) = true
    ∧ answers (exec (.index 0o100#10) { State.reset with ext := true }) (fun t => t.ext && t.blit) = true
    ∧ answers (exec (.tc 0#12) { State.reset with ext := true }) (fun t => !t.ext && !t.blit) = true := by decide
theorem test_witness_step_goes_on : (decode false false 0o20000#15).fieldZero = true
    ∧ refuses (step (running false 0o20000#15)) "DAS" = true := by decide
theorem test_witness_fixed_memory : answers (step (withFixed (running false 0o54100#15) 0o4100 0o54100#15))
    (fun t => t.rope == [(0o4100, 0o54100#15)]) = true := by decide
theorem test_witness_inv : State.reset.Inv := by
  refine ⟨rfl, rfl, rfl, ?_⟩
  intro p hp
  cases hp
theorem test_witness_sum : ovf (add1c16 (sext16 0o37777#15) (sext16 1#15)) = .pos
    ∧ ovf (add1c16 (sext16 0o40000#15) (sext16 0o77776#15)) = .neg
    ∧ ovf (add1c16 (sext16 0o37776#15) (sext16 1#15)) = .none := by decide
/-- The window shows the registers while EBANK is 0, at both ends of its first eight addresses (R104). -/
theorem test_witness_register_window : State.reset.ebank = 0#3 ∧ resolve State.reset 0o1400#12 = .reg .a
    ∧ resolve State.reset 0o1407#12 = resolve State.reset 7#12 ∧ (7#12 : Addr) < 8#12 := by decide
theorem test_witness_editing : (0o20#8 : EOff) ≤ 0o20#8 ∧ (0o20#8 : EOff) ≤ 0o23#8 ∧ (0o23#8 : EOff) ≤ 0o23#8 := by decide
theorem test_witness_memory_map_erasable : resolve State.reset 8#12 = .eras 0#3 8#8
    ∧ resolve State.reset 0o1377#12 = .eras 2#3 0o377#8 ∧ resolve { State.reset with ebank := 1#3 } 0o1400#12 = .eras 1#3 0#8
    ∧ resolve State.reset 0o1410#12 = .eras 0#3 8#8 := by decide
theorem test_witness_memory_map_fixed : resolve { State.reset with fbank := 0o27#5, sbank := 7#3 } 0o2000#12 = .fixed 0o27 0#10
    ∧ resolve { State.reset with fbank := 0o33#5, sbank := 4#3 } 0o3777#12 = .fixed 0o43 0o1777#10
    ∧ resolve { State.reset with fbank := 0o37#5, sbank := 3#3 } 0o2000#12 = .fixed 0o37 0#10
    ∧ resolve State.reset 0o4000#12 = .fixed 2 0#10 ∧ resolve State.reset 0o7777#12 = .fixed 3 0o1777#10 := by decide
theorem test_witness_channels : chanRead (chanWrite State.reset 2#9 0o040001#16) 2#9 = 0o040001#16
    ∧ chanRead (chanWrite State.reset 7#9 0o177777#16) 7#9 = 0o000160#16
    ∧ chanRead (chanWrite { State.reset with inputChans := [0o30#9] } 0o30#9 5#16) 0o30#9 = 0#16
    ∧ chanRead (chanWrite { State.reset with inputChans := [5#9] } 5#9 6#16) 5#9 = 6#16
    ∧ chanRead (chanWrite State.reset 0o11#9 0o040001#16) 0o11#9 = 1#16 := by decide
theorem test_witness_dinc : counter State.reset 0o31#8 = 0#15
    ∧ (doSequence (withCell State.reset 0o31#8 1#15) .dinc).observed = [.pout]
    ∧ (doSequence (withCell State.reset 0o31#8 0o40000#15) .dinc).observed = [.mout] := by decide
theorem test_witness_tcf_next : answers (exec (.tcf 0o4101#12) (running false 0#15)) (fun t => t.z == 0o4102#12) = true := by decide
theorem test_witness_double_loads : (1#12 : Addr) ≠ 0#12 ∧ (2#12 : Addr) ≠ 0#12
    ∧ resolve { State.reset with ebank := 0#3 } (0o1402#12 - 1#12) = .reg .l := by decide
theorem test_witness_dxch : (2#10 : EAddr) ≠ 0#10 ∧ (1#10 : EAddr) ≠ 0#10 ∧ (1#10 : EAddr) ≠ 2#10 := by decide
theorem test_witness_das : (2#10 : EAddr) ≠ 0#10 ∧ (2#10 : EAddr) ≠ 1#10 := by decide
theorem test_witness_mp : ¬((0#12 : Addr) = 0#12 ∧ ovf 0o037777#16 ≠ .none) ∧ ¬((1#12 : Addr) = 0#12 ∧ ovf 0o040000#16 ≠ .none)
    ∧ val 0#15 * val 0o77776#15 = 0 := by decide
/-- The four clauses of DV, each with a dividend and a divisor. -/
theorem test_witness_dv : (val2 0#15 0o77777#15 = 0 ∧ val 1#15 ≠ 0) ∧ (val2 0#15 0#15 = 0 ∧ val 0o77777#15 = 0)
    ∧ (val2 1#15 0#15 ≠ 0 ∧ (val2 1#15 0#15).natAbs = 2 ^ 14 * (val 1#15).natAbs)
    ∧ (val2 0#15 0o37777#15 ≠ 0 ∧ (val2 0#15 0o37777#15).natAbs < 2 ^ 14 * (val 1#15).natAbs) := by decide

end Sys2Proof.Tests
end

section
/-! Cells and registers: which offsets of bank E0 are registers, and that no other location is a cell (10_state.md R21). -/

namespace Sys2Proof.Machine

/-- The eight registers stand at offsets 0 to 7 (10_state.md R21). -/
theorem cpuRegAt_eq_none_iff (off : EOff) : cpuRegAt off = none ↔ 8 ≤ off.toNat := by
  unfold cpuRegAt
  split
  case h_9 =>
    simp only [imp_false] at *
    exact iff_of_true trivial (by omega)
  all_goals exact iff_of_false nofun (by omega)

theorem eraseLoc_eras_cell {b bank : EBank} {o off : EOff} (h : eraseLoc b o = .eras bank off) :
    bank ≠ 0#3 ∨ 8 ≤ off.toNat := by
  unfold eraseLoc at h
  split at h
  · split at h
    · cases h
    · rename_i hnone
      cases h
      exact .inr ((cpuRegAt_eq_none_iff _).mp hnone)
  · cases h
    exact .inl ‹_›

theorem fixedLoc_ne_eras (n : Option Nat) (o : BitVec 10) (bank : EBank) (off : EOff) :
    fixedLoc n o ≠ .eras bank off := by
  unfold fixedLoc
  split
  · split <;> simp
  · simp

/-- An address resolves to a cell only past the eight registers (20_memory.md R109, 10_state.md R21). -/
theorem resolve_eras_cell {s : State} {k : Addr} {bank : EBank} {off : EOff} (h : resolve s k = .eras bank off) :
    bank ≠ 0#3 ∨ 8 ≤ off.toNat := by
  unfold resolve at h
  split at h
  · exact eraseLoc_eras_cell h
  · split at h
    · exact absurd h (fixedLoc_ne_eras _ _ _ _)
    · split at h <;> cases h

end Sys2Proof.Machine
end

section
/-! The editing registers CYR, SR, CYL and EDOP (10_state.md R45 to R48). -/

namespace Sys2Proof.Machine

/-- An address below 0o400 names that cell of bank E0, whatever EBANK is; past the eight registers it is memory (R103). -/
theorem resolve_lowCell (s : State) {r : EOff} (h : 8 ≤ r.toNat) : resolve s (r.setWidth 12) = .eras 0#3 r := by
  have hr := r.isLt
  have hk : (r.setWidth 12).toNat = r.toNat := by
    rw [BitVec.toNat_setWidth, Nat.mod_eq_of_lt (by omega)]
  have hbank : eraseBank s (r.setWidth 12) = 0#3 := by
    unfold eraseBank
    rw [if_pos (by omega)]
    apply BitVec.eq_of_toNat_eq
    rw [BitVec.extractLsb'_toNat, hk, Nat.shiftRight_eq_div_pow, Nat.div_eq_of_lt (by omega)]
    rfl
  have hoff : eraseOff (r.setWidth 12) = r := by
    apply BitVec.eq_of_toNat_eq
    rw [eraseOff, BitVec.extractLsb'_toNat, hk]
    exact Nat.mod_eq_of_lt hr
  have hreg : cpuRegAt r = none := (cpuRegAt_eq_none_iff r).mpr h
  rw [resolve, if_pos (by omega), hbank, hoff, eraseLoc, if_pos rfl, hreg]

/-- A write to a low cell stores the edited word there and does nothing else (20_memory.md R111). -/
theorem memWrite_lowCell (s : State) {r : EOff} (h : 8 ≤ r.toNat) (w : Word) :
    memWrite s (r.setWidth 12) w = eraseWrite s 0#3 r (edit 0#3 r w) := by
  rw [memWrite, resolve_lowCell s h]

theorem memRead_lowCell (s : State) {r : EOff} (h : 8 ≤ r.toNat) : memRead s (r.setWidth 12) = eraseRead s 0#3 r := by
  rw [memRead, resolve_lowCell s h]

theorem memRead_memWrite_lowCell (s : State) {r : EOff} (h : 8 ≤ r.toNat) (w : Word) :
    memRead (memWrite s (r.setWidth 12) w) (r.setWidth 12) = edit 0#3 r w := by
  rw [memWrite_lowCell s h, memRead_lowCell _ h, eraseRead_eraseWrite, if_pos ⟨rfl, rfl⟩]

/-- CYR cycles right (R45). -/
theorem edit_cyr (w : Word) : edit 0#3 0o20#8 w = w.rotateRight 1 := by
  show w.extractLsb' 0 1 ++ w.extractLsb' 1 14 = w.rotateRight 1
  apply BitVec.eq_of_getLsbD_eq
  intro i hi
  rw [BitVec.getLsbD_append, BitVec.getLsbD_rotateRight]
  by_cases h : i < 14
  · simp [h]
  · obtain rfl : i = 14 := by omega
    simp

/-- SR shifts right and keeps the sign (R46). -/
theorem edit_sr (w : Word) : edit 0#3 0o21#8 w = w.sshiftRight 1 := by
  show w.extractLsb' 14 1 ++ w.extractLsb' 1 14 = w.sshiftRight 1
  apply BitVec.eq_of_getLsbD_eq
  intro i hi
  rw [BitVec.getLsbD_append, BitVec.getLsbD_sshiftRight]
  by_cases h : i < 14
  · simp [h, show ¬15 ≤ i by omega, show 1 + i < 15 by omega]
  · obtain rfl : i = 14 := by omega
    simp [BitVec.msb_eq_getLsbD_last]

/-- CYL cycles left (R47). -/
theorem edit_cyl (w : Word) : edit 0#3 0o22#8 w = w.rotateLeft 1 := by
  show w.extractLsb' 0 14 ++ w.extractLsb' 14 1 = w.rotateLeft 1
  apply BitVec.eq_of_getLsbD_eq
  intro i hi
  rw [BitVec.getLsbD_append, BitVec.getLsbD_rotateLeft]
  by_cases h : i < 1
  · obtain rfl : i = 0 := by omega
    simp
  · simp [h, show i - 1 < 14 by omega, show i < 15 by omega]

/-- EDOP keeps bits 14 to 8, seven places down (R48). -/
theorem edit_edop (w : Word) : edit 0#3 0o23#8 w = (w >>> 7) &&& 0o00177#15 := by
  show (w.extractLsb' 7 7).setWidth 15 = (w >>> 7) &&& 0o00177#15
  apply BitVec.eq_of_toNat_eq
  rw [BitVec.toNat_and, BitVec.toNat_setWidth, BitVec.extractLsb'_toNat, BitVec.toNat_ushiftRight,
    show (0o00177#15).toNat = 2 ^ 7 - 1 from rfl, Nat.and_two_pow_sub_one_eq_mod]
  omega

/-- Settles O20: each editing register is a low cell, so the write is `eraseWrite` of the edited word. -/
theorem editingRegisters : Obligations.EditingRegisters := by
  intro s w
  have stored (r : EOff) (h : 8 ≤ r.toNat) := memRead_memWrite_lowCell s h w
  refine ⟨(stored 0o20#8 (by decide)).trans (edit_cyr w), (stored 0o21#8 (by decide)).trans (edit_sr w),
    (stored 0o22#8 (by decide)).trans (edit_cyl w), (stored 0o23#8 (by decide)).trans (edit_edop w), ?_⟩
  intro r hlo _
  have hr : 8 ≤ r.toNat := le_trans (by decide) (BitVec.le_def.mp hlo)
  rw [memWrite_lowCell s hr]
  refine ⟨fun bank off hne => ?_, rfl⟩
  rw [eraseRead_eraseWrite, if_neg]
  rintro ⟨rfl, rfl⟩
  exact hne ⟨rfl, rfl⟩

end Sys2Proof.Machine
end

section
/-! What an instruction, a counter sequence, an act of the environment and a step do to the flags INH and ISR, and that
each keeps the invariant of the memories: one relation, one rule per operation of the state, one lemma per instruction. -/

namespace Sys2Proof.Machine

/-! ### The relation -/

/-- The channels are in canonical form, and none is a register of the CPU (10_state.md R77, R80). -/
def ChannelsOk (m : Memory) : Prop := Memory.wf 0 0o1000 m = true ∧ ∀ p ∈ m, p.1 ≠ 1 ∧ p.1 ≠ 2 ∧ p.1 ≠ 7

/-- `t` is reached from `s` by operations that leave INH at `inh` and ISR at `isr`, the ropes as they were, and the two
writable memories within their bounds. -/
structure Keeps (s : State) (inh isr : Bool) (t : State) : Prop where
  inh : t.inh = inh
  isr : t.isr = isr
  rope : t.rope = s.rope
  erasable : Memory.wf 0o10 0o4000 s.erasable = true → Memory.wf 0o10 0o4000 t.erasable = true
  chan : ChannelsOk s.chan → ChannelsOk t.chan

/-- An instruction's answer, if it goes on, is a state that `Keeps` relates to `s`. -/
def EndsKeeping (s : State) (inh isr : Bool) (r : Result) : Prop := ∀ t, r = .next t → Keeps s inh isr t

variable {s t u : State} {inh isr : Bool}

theorem State.inv_iff (s : State) :
    s.Inv ↔ Memory.wf 0o10 0o4000 s.erasable = true ∧ Memory.wf 0 0o110000 s.rope = true ∧ ChannelsOk s.chan :=
  Iff.rfl

namespace Keeps

protected theorem refl (s : State) : Keeps s s.inh s.isr s := ⟨rfl, rfl, rfl, id, id⟩

protected theorem trans {inh' isr' : Bool} (h : Keeps s inh isr u) (h' : Keeps u inh' isr' t) : Keeps s inh' isr' t :=
  ⟨h'.inh, h'.isr, h'.rope.trans h.rope, h'.erasable ∘ h.erasable, h'.chan ∘ h.chan⟩

/-- What the relation is for: it carries the invariant along. -/
protected theorem inv (h : Keeps s inh isr t) (hs : s.Inv) : t.Inv := by
  obtain ⟨herasable, hrope, hchan⟩ := (State.inv_iff s).mp hs
  exact (State.inv_iff t).mpr ⟨h.erasable herasable, by rwa [h.rope], h.chan hchan⟩

/-- Updates of any other field do not matter. -/
protected theorem of_same (h : Keeps s inh isr u) (hinh : t.inh = u.inh) (hisr : t.isr = u.isr)
    (hrope : t.rope = u.rope) (herasable : t.erasable = u.erasable) (hchan : t.chan = u.chan) : Keeps s inh isr t :=
  ⟨hinh.trans h.inh, hisr.trans h.isr, hrope.trans h.rope, fun hw => herasable ▸ h.erasable hw,
    fun hc => hchan ▸ h.chan hc⟩

/-! ### The named updates -/

protected theorem setA (h : Keeps s inh isr u) (v : Acc) : Keeps s inh isr (u.setA v) := h.of_same rfl rfl rfl rfl rfl

protected theorem setL (h : Keeps s inh isr u) (v : Word) : Keeps s inh isr (u.setL v) := h.of_same rfl rfl rfl rfl rfl

protected theorem setQ (h : Keeps s inh isr u) (v : Acc) : Keeps s inh isr (u.setQ v) := h.of_same rfl rfl rfl rfl rfl

protected theorem setZ (h : Keeps s inh isr u) (v : Addr) : Keeps s inh isr (u.setZ v) := h.of_same rfl rfl rfl rfl rfl

protected theorem setB (h : Keeps s inh isr u) (v : Word) : Keeps s inh isr (u.setB v) :=
  h.of_same rfl rfl rfl rfl rfl

protected theorem setBlit (h : Keeps s inh isr u) (v : Bool) : Keeps s inh isr (u.setBlit v) :=
  h.of_same rfl rfl rfl rfl rfl

protected theorem setExt (h : Keeps s inh isr u) (v : Bool) : Keeps s inh isr (u.setExt v) :=
  h.of_same rfl rfl rfl rfl rfl

protected theorem setInh (h : Keeps s inh isr u) (v : Bool) : Keeps s v isr (u.setInh v) :=
  ⟨rfl, h.isr, h.rope, h.erasable, h.chan⟩

protected theorem setIsr (h : Keeps s inh isr u) (v : Bool) : Keeps s inh v (u.setIsr v) :=
  ⟨h.inh, rfl, h.rope, h.erasable, h.chan⟩

protected theorem setRuptReq (h : Keeps s inh isr u) (v : Latches) : Keeps s inh isr (u.setRuptReq v) :=
  h.of_same rfl rfl rfl rfl rfl

protected theorem setPending (h : Keeps s inh isr u) (v : List CounterReq) : Keeps s inh isr (u.setPending v) :=
  h.of_same rfl rfl rfl rfl rfl

protected theorem setEnv (h : Keeps s inh isr u) (v : List Boundary) : Keeps s inh isr (u.setEnv v) :=
  h.of_same rfl rfl rfl rfl rfl

protected theorem tick (h : Keeps s inh isr u) (n : Nat) : Keeps s inh isr (u.tick n) := h.of_same rfl rfl rfl rfl rfl

protected theorem draw (h : Keeps s inh isr u) : Keeps s inh isr u.draw := h.of_same rfl rfl rfl rfl rfl

protected theorem observe (h : Keeps s inh isr u) (o : Observation) : Keeps s inh isr (u.observe o) :=
  h.of_same rfl rfl rfl rfl rfl

protected theorem raise (h : Keeps s inh isr u) (i : Interrupt) : Keeps s inh isr (raise u i) := h.setRuptReq _

protected theorem post (h : Keeps s inh isr u) (r : CounterReq) : Keeps s inh isr (post u r) := h.setPending _

protected theorem loadB (h : Keeps s inh isr u) (w : Word) (z : Addr) : Keeps s inh isr (loadB u w z) :=
  ((h.setB w).setZ z).setBlit false

protected theorem jumpTo (h : Keeps s inh isr u) (k : Addr) : Keeps s inh isr (jumpTo u k) := h.loadB _ _

protected theorem ite {p : Prop} [Decidable p] (ht : Keeps s inh isr t) (hu : Keeps s inh isr u) :
    Keeps s inh isr (if p then t else u) := by
  split
  · exact ht
  · exact hu

/-! ### Writes to memory -/

/-- A cell past the eight registers is a word of erasable memory (10_state.md R21, 20_memory.md R103). -/
protected theorem eraseWrite (h : Keeps s inh isr u) {bank : EBank} {off : EOff} (hcell : bank ≠ 0#3 ∨ 8 ≤ off.toNat)
    (w : Word) : Keeps s inh isr (eraseWrite u bank off w) :=
  ⟨h.inh, h.isr, h.rope,
    fun hw => Memory.wf_write (h.erasable hw) (eraseKey_ge hcell) (eraseKey_lt bank off) w, h.chan⟩

/-- A channel that is no register of the CPU may be written. -/
protected theorem setChan_write (h : Keeps s inh isr u) {c : Nat} (hlt : c < 0o1000) (hreg : c ≠ 1 ∧ c ≠ 2 ∧ c ≠ 7)
    (w : Word) : Keeps s inh isr (u.setChan (u.chan.write c w)) := by
  refine ⟨h.inh, h.isr, h.rope, h.erasable, fun hc => ?_⟩
  obtain ⟨hwf, hord⟩ := h.chan hc
  refine ⟨Memory.wf_write hwf (Nat.zero_le c) hlt w, fun p hp => ?_⟩
  rcases Memory.mem_write hp with hpc | hpm
  · rwa [hpc]
  · exact hord p hpm

protected theorem setChan_writeNo (h : Keeps s inh isr u) {c : ChanNo} (h1 : c ≠ 1#9) (h2 : c ≠ 2#9) (h7 : c ≠ 7#9)
    (w : Word) : Keeps s inh isr (u.setChan (u.chan.write c.toNat w)) := by
  have toNat_ne {d : ChanNo} (hd : c ≠ d) : c.toNat ≠ d.toNat := fun he => hd (BitVec.eq_of_toNat_eq he)
  exact h.setChan_write c.isLt ⟨toNat_ne h1, toNat_ne h2, toNat_ne h7⟩ w

end Keeps

/-- A store to an operand keeps the bounds of erasable memory, for it writes no register's cell. -/
theorem wf_storedErasable {m : Memory} (hm : Memory.wf 0o10 0o4000 m = true) (s : State) (k : Addr) (w : Word) :
    Memory.wf 0o10 0o4000 (storedErasable m (resolve s k) w) = true := by
  unfold storedErasable
  split
  case h_1 bank off hloc => exact Memory.wf_write hm (eraseKey_ge (resolve_eras_cell hloc)) (eraseKey_lt bank off) _
  all_goals exact hm

/-- A re-write stores the word that is there, so it is a store (40_common_arithmetic.md R198). -/
theorem reWrite_erasable (s : State) (k : Addr) :
    (reWrite s k).erasable = storedErasable s.erasable (resolve s k) (memRead s k) := by
  rw [reWrite_eq]
  unfold storedErasable memRead
  cases resolve s k <;> rfl

namespace Keeps

protected theorem wrOp (h : Keeps s inh isr u) (k : Addr) (v : Acc) : Keeps s inh isr (wrOp u k v) := by
  rw [wrOp_eq]
  exact ⟨h.inh, h.isr, h.rope, fun hw => wf_storedErasable (h.erasable hw) u k _, h.chan⟩

protected theorem reWrite (h : Keeps s inh isr u) (k : Addr) : Keeps s inh isr (reWrite u k) := by
  have herasable := reWrite_erasable u k
  rw [reWrite_eq] at herasable ⊢
  exact ⟨h.inh, h.isr, h.rope, fun hw => herasable ▸ wf_storedErasable (h.erasable hw) u k _, h.chan⟩

protected theorem chanStore (h : Keeps s inh isr u) (c : ChanNo) (v : Acc) : Keeps s inh isr (chanStore u c v) := by
  unfold chanStore
  split
  · exact h.setL _
  · split
    · exact h.setQ _
    · split
      · exact h.of_same rfl rfl rfl rfl rfl
      · split
        · exact h
        · exact h.setChan_writeNo ‹_› ‹_› ‹_› _

protected theorem chanWrite (h : Keeps s inh isr u) (c : ChanNo) (v : Acc) : Keeps s inh isr (chanWrite u c v) :=
  (h.chanStore c v).observe _

protected theorem locOverflow (h : Keeps s inh isr u) (loc : Loc) : Keeps s inh isr (locOverflow u loc) := by
  rw [locOverflow_eq]
  exact h.of_same rfl rfl rfl rfl rfl

protected theorem storeCount (h : Keeps s inh isr u) (k : Addr) (sum : Acc) : Keeps s inh isr (storeCount k sum u) :=
  ((h.wrOp k sum).locOverflow _).ite (h.wrOp k sum)

protected theorem saveZ (h : Keeps s inh isr u) : Keeps s inh isr (saveZ u) := h.eraseWrite (.inr (by decide)) _

protected theorem saveB (h : Keeps s inh isr u) : Keeps s inh isr (saveB u) := h.eraseWrite (.inr (by decide)) _

end Keeps

/-! ### The endings of an instruction -/

namespace EndsKeeping

protected theorem next (h : Keeps s inh isr u) : EndsKeeping s inh isr (.next u) := by
  rintro t ⟨⟩
  exact h

protected theorem done (h : Keeps s inh isr u) (n : Nat) : EndsKeeping s inh isr (done u n) :=
  .next (((h.setExt false).jumpTo _).tick n)

protected theorem doneB (h : Keeps s inh isr u) (n : Nat) : EndsKeeping s inh isr (doneB u n) :=
  .next ((h.setExt false).tick n)

protected theorem refused (r : Refusal) : EndsKeeping s inh isr (.refused r) := by
  intro t hr
  cases hr

protected theorem ite {p : Prop} [Decidable p] {r r' : Result} (hr : EndsKeeping s inh isr r)
    (hr' : EndsKeeping s inh isr r') : EndsKeeping s inh isr (if p then r else r') := by
  split
  · exact hr
  · exact hr'

end EndsKeeping

/-! ### The meanings that change neither flag -/

/-- A meaning that leaves INH and ISR as they are and the memories within their bounds. -/
def Routine (meaning : State → Result) : Prop := ∀ s, EndsKeeping s s.inh s.isr (meaning s)

theorem add_routine (k : Addr) : Routine (add k) := fun s => .done (((Keeps.refl s).setA _).reWrite k) 2

theorem execAds_routine (k : EAddr) : Routine (execAds k) := fun s => .done (((Keeps.refl s).setA _).wrOp _ _) 2

theorem execSu_routine (k : EAddr) : Routine (execSu k) := fun s => .done (((Keeps.refl s).setA _).reWrite _) 2

theorem execMsu_routine (k : EAddr) : Routine (execMsu k) := fun s => .done (((Keeps.refl s).setA _).reWrite _) 2

theorem doubleAddToStorage_routine (f : Addr) : Routine (doubleAddToStorage f) := fun s =>
  .ite (.refused _) (.ite (.done (((Keeps.refl s).setL _).setA _) 3)
    (.done (((((Keeps.refl s).wrOp _ _).wrOp _ _).setL _).setA _) 3))

theorem execIncr_routine (k : EAddr) : Routine (execIncr k) := fun s => .done ((Keeps.refl s).storeCount _ _) 2

theorem execAug_routine (k : EAddr) : Routine (execAug k) := fun s => .done ((Keeps.refl s).storeCount _ _) 2

theorem execDim_routine (k : EAddr) : Routine (execDim k) := fun s => .done ((Keeps.refl s).wrOp _ _) 2

theorem multiply_routine (k : Addr) : Routine (multiply k) := fun s =>
  .ite (.done (((Keeps.refl s).setA _).setL _).draw 3) (.done (((Keeps.refl s).setA _).setL _) 3)

theorem execDv_routine (k : EAddr) : Routine (execDv k) := by
  intro s
  unfold execDv
  dsimp only
  split
  · exact .done (((Keeps.refl s).setA _).setL _) 6
  · exact .done (((Keeps.refl s).setA _).setL _).draw 6

theorem mask_routine (k : Addr) : Routine (mask k) := fun s => .done ((Keeps.refl s).setA _) 2

theorem execRead_routine (c : ChanNo) : Routine (execRead c) := fun s => .done ((Keeps.refl s).setA _) 2

theorem execWrite_routine (c : ChanNo) : Routine (execWrite c) := fun s => .done ((Keeps.refl s).chanWrite c _) 2

theorem combineRead_routine (g16 : Acc → Acc → Acc) (g15 : Word → Word → Word) (c : ChanNo) :
    Routine (combineRead g16 g15 c) := fun s => .done ((Keeps.refl s).setA _) 2

theorem combineWrite_routine (g16 : Acc → Acc → Acc) (g15 : Word → Word → Word) (c : ChanNo) :
    Routine (combineWrite g16 g15 c) := fun s => .done (((Keeps.refl s).chanWrite c _).setA _) 2

theorem clearAndAdd_routine (k : Addr) : Routine (clearAndAdd k) := fun s =>
  .done (((Keeps.refl s).setA _).reWrite k) 2

theorem clearAndSubtract_routine (k : Addr) : Routine (clearAndSubtract k) := fun s =>
  .done (((Keeps.refl s).setA _).reWrite k) 2

theorem doubleClearAndAdd_routine (f : Addr) : Routine (doubleClearAndAdd f) := fun s =>
  .ite (.refused _) (.ite (.done (((Keeps.refl s).setA _).setL _) 3)
    (.done (((((Keeps.refl s).setL _).reWrite _).setA _).reWrite _) 3))

theorem doubleClearAndSubtract_routine (f : Addr) : Routine (doubleClearAndSubtract f) := fun s =>
  .ite (.refused _) (.ite (.done (((Keeps.refl s).setA _).setL _) 3)
    (.done (((((Keeps.refl s).setL _).reWrite _).setA _).reWrite _) 3))

theorem tsOverflow_keeps (s : State) : Keeps s s.inh s.isr (tsOverflow s) := by
  unfold tsOverflow
  split
  · exact .refl s
  · exact ((Keeps.refl s).setA _).setZ _
  · exact ((Keeps.refl s).setA _).setZ _

theorem transferToStorage_routine (k : Addr) : Routine (transferToStorage k) := fun s =>
  .done ((tsOverflow_keeps s).wrOp k _) 2

theorem execXch_routine (k : EAddr) : Routine (execXch k) := fun s => .done (((Keeps.refl s).wrOp _ _).setA _) 2

protected theorem Keeps.exchangeL (h : Keeps s inh isr u) (k : Addr) : Keeps s inh isr (exchangeL k u) :=
  (h.wrOp k _).setL _

theorem execLxch_routine (k : EAddr) : Routine (execLxch k) := fun s => .done ((Keeps.refl s).exchangeL _) 2

theorem execZl_routine : Routine execZl := fun s => .done ((Keeps.refl s).exchangeL _) 2

theorem execQxch_routine (k : EAddr) : Routine (execQxch k) := fun s => .done (((Keeps.refl s).wrOp _ _).setQ _) 2

theorem execZq_routine : Routine execZq := fun s => .done (((Keeps.refl s).wrOp _ _).setQ _) 2

theorem doubleExchange_routine (f : Addr) : Routine (doubleExchange f) := fun s =>
  .ite (.refused _) (.ite (.done ((((Keeps.refl s).setA _).setL _).setQ _) 3)
    (.done ((((Keeps.refl s).exchangeL _).wrOp _ _).setA _) 3))

theorem transferControl_routine (k : Addr) (n : Nat) : Routine (transferControl k · n) := fun s =>
  .doneB (((Keeps.refl s).setQ _).loadB _ _) n

theorem transferNoReturn_routine (k : Addr) : Routine (transferNoReturn k) := fun s =>
  .doneB ((Keeps.refl s).jumpTo k) 1

theorem execBzf_routine (k : Addr) : Routine (execBzf k) := fun s =>
  .ite (transferNoReturn_routine k s) (.done (.refl s) 2)

theorem execBzmf_routine (k : Addr) : Routine (execBzmf k) := fun s =>
  .ite (transferNoReturn_routine k s) (.done (.refl s) 2)

theorem execCcs_routine (k : EAddr) : Routine (execCcs k) := fun s =>
  .done ((((Keeps.refl s).reWrite _).setA _).setZ _) 2

theorem execExtend_routine : Routine execExtend := fun s => .next ((((Keeps.refl s).setExt true).jumpTo _).tick 1)

theorem indexNext_routine (k : Addr) : Routine (indexNext k) := fun s =>
  .next (((((Keeps.refl s).reWrite k).setB _).setZ _).setBlit true |>.tick 2)

/-! ### Every instruction -/

/-- INH after an instruction (10_state.md R34). -/
def inhAfter (i : Instr) (old : Bool) : Bool :=
  match i with
  | .inhint => true
  | .relint => false
  | _ => old

/-- ISR after an instruction (10_state.md R35). -/
def isrAfter (i : Instr) (old : Bool) : Bool :=
  match i with
  | .edrupt _ => true
  | .resume => false
  | _ => old

theorem inhAfter_other {i : Instr} (hinhint : i ≠ .inhint) (hrelint : i ≠ .relint) (old : Bool) :
    inhAfter i old = old := by
  unfold inhAfter
  split
  · exact absurd rfl hinhint
  · exact absurd rfl hrelint
  · rfl

theorem isrAfter_other {i : Instr} (hresume : i ≠ .resume) (hedrupt : ∀ c, i ≠ .edrupt c) (old : Bool) :
    isrAfter i old = old := by
  unfold isrAfter
  split
  · exact absurd rfl (hedrupt _)
  · exact absurd rfl hresume
  · rfl

/-- Every instruction writes INH and ISR as `inhAfter` and `isrAfter` say, and keeps the bounds of the memories. -/
theorem exec_keeps (i : Instr) (s : State) : EndsKeeping s (inhAfter i s.inh) (isrAfter i s.isr) (exec i s) := by
  cases i with
  | inhint => exact .done ((Keeps.refl s).setInh true) 1
  | relint => exact .done ((Keeps.refl s).setInh false) 1
  | resume => exact .doneB (((Keeps.refl s).setIsr false).loadB _ _) 2
  | edrupt c => exact .doneB (((Keeps.refl s).saveZ.setIsr true).jumpTo _) 3
  | tc k => exact transferControl_routine k 1 s
  | ccs k => exact execCcs_routine k s
  | tcf k => exact transferNoReturn_routine k s
  | das f => exact doubleAddToStorage_routine (ea f) s
  | lxch k => exact execLxch_routine k s
  | incr k => exact execIncr_routine k s
  | ads k => exact execAds_routine k s
  | ca k => exact clearAndAdd_routine k s
  | cs k => exact clearAndSubtract_routine k s
  | index k => exact indexNext_routine (ea k) s
  | dxch f => exact doubleExchange_routine (ea f) s
  | ts k => exact transferToStorage_routine (ea k) s
  | xch k => exact execXch_routine k s
  | ad k => exact add_routine k s
  | mask k => exact mask_routine k s
  | read c => exact execRead_routine c s
  | write c => exact execWrite_routine c s
  | rand c => exact combineRead_routine _ _ c s
  | wand c => exact combineWrite_routine _ _ c s
  | ror c => exact combineRead_routine _ _ c s
  | wor c => exact combineWrite_routine _ _ c s
  | rxor c => exact combineRead_routine _ _ c s
  | dv k => exact execDv_routine k s
  | bzf k => exact execBzf_routine k s
  | msu k => exact execMsu_routine k s
  | qxch k => exact execQxch_routine k s
  | aug k => exact execAug_routine k s
  | dim k => exact execDim_routine k s
  | dca f => exact doubleClearAndAdd_routine f s
  | dcs f => exact doubleClearAndSubtract_routine f s
  | indexExt k => exact indexNext_routine k s
  | su k => exact execSu_routine k s
  | bzmf k => exact execBzmf_routine k s
  | mp k => exact multiply_routine k s
  | extend => exact execExtend_routine s
  | xxalq => exact transferControl_routine 0#12 1 s
  | xlq => exact transferControl_routine 1#12 1 s
  | returnQ => exact transferControl_routine 2#12 1 s
  | noop => exact clearAndAdd_routine 0#12 s
  | ddoubl => exact doubleAddToStorage_routine 1#12 s
  | zl => exact execZl_routine s
  | com => exact clearAndSubtract_routine 0#12 s
  | dtcf => exact doubleExchange_routine 5#12 s
  | dtcb => exact doubleExchange_routine 6#12 s
  | ovsk => exact transferToStorage_routine 0#12 s
  | tcaa => exact transferToStorage_routine 5#12 s
  | double => exact add_routine 0#12 s
  | zq => exact execZq_routine s
  | dcom => exact doubleClearAndSubtract_routine 1#12 s
  | square => exact multiply_routine 0#12 s
  | tcr k => exact transferControl_routine k 1 s
  | cae k => exact clearAndAdd_routine k s
  | caf k => exact clearAndAdd_routine k s
  | ndx k => exact indexNext_routine (ea k) s
  | msk k => exact mask_routine k s
  | ndxExt k => exact indexNext_routine k s

/-! ### The unprogrammed sequences and the acts of the environment -/

/-- A counter is a cell of E0 past the registers (10_state.md R50 to R65). -/
protected theorem Keeps.setCounter (h : Keeps s inh isr u) {off : EOff} (hoff : 8 ≤ off.toNat) (w : Word) :
    Keeps s inh isr (setCounter u off w) := h.eraseWrite (.inr hoff) w

theorem PincCounter.off_ge (c : PincCounter) : 8 ≤ c.off.toNat := by cases c <;> decide

theorem MincCounter.off_ge (c : MincCounter) : 8 ≤ c.off.toNat := by cases c <;> decide

theorem CduCounter.off_ge (c : CduCounter) : 8 ≤ c.off.toNat := by cases c <;> decide

theorem ShiftCounter.off_ge (c : ShiftCounter) : 8 ≤ c.off.toNat := by cases c <;> decide

theorem CommandCounter.off_ge (c : CommandCounter) : 8 ≤ c.off.toNat := by cases c <;> decide

protected theorem Keeps.pincOverflow (h : Keeps s inh isr u) (c : PincCounter) : Keeps s inh isr (pincOverflow u c) := by
  cases c with
  | time1 => exact h.post _
  | time3 | time4 | time5 => exact h.raise _
  | time2 | pipax | pipay | pipaz | rhcp | rhcy | rhcr => exact h

theorem pinc_keeps (s : State) (c : PincCounter) : Keeps s s.inh s.isr (pinc s c) :=
  have hcount := (Keeps.refl s).setCounter c.off_ge _
  (hcount.pincOverflow c).ite hcount

theorem dinc_keeps (s : State) : Keeps s s.inh s.isr (dinc s) := by
  have hoff : 8 ≤ time6Off.toNat := by decide
  unfold dinc
  dsimp only
  split
  · exact (((Keeps.refl s).observe _).setChan_write (by decide) (by decide) _).raise _
  · split
    · exact ((Keeps.refl s).setCounter hoff _).observe _
    · exact ((Keeps.refl s).setCounter hoff _).observe _

theorem shiftCounter_keeps (s : State) (c : ShiftCounter) (bit : BitVec 1) :
    Keeps s s.inh s.isr (shiftCounter s c bit) :=
  have hshift := (Keeps.refl s).setCounter c.off_ge _
  (hshift.raise _).ite hshift

theorem doSequence_keeps (s : State) (r : CounterReq) : Keeps s s.inh s.isr (doSequence s r) := by
  refine Keeps.tick ?_ 1
  cases r with
  | pinc c => exact pinc_keeps s c
  | minc c => exact (Keeps.refl s).setCounter c.off_ge _
  | pcdu c => exact (Keeps.refl s).setCounter c.off_ge _
  | mcdu c => exact (Keeps.refl s).setCounter c.off_ge _
  | dinc => exact dinc_keeps s
  | shinc c => exact shiftCounter_keeps s c _
  | shanc c => exact shiftCounter_keeps s c _

theorem advanceScaler_keeps (s : State) : Keeps s s.inh s.isr (advanceScaler s) :=
  have hlow := (Keeps.refl s).setChan_write (c := 4) (by decide) (by decide) _
  (hlow.setChan_write (c := 3) (by decide) (by decide) _).ite hlow

theorem presentChannel_keeps (s : State) (c : ChanNo) (v : Word) : Keeps s s.inh s.isr (presentChannel s c v) := by
  unfold presentChannel
  split
  · rename_i hpresent
    obtain ⟨hinput, _⟩ := hpresent
    obtain ⟨h1, h2, h7⟩ := isInput_ordinary hinput
    exact (Keeps.refl s).setChan_writeNo h1 h2 h7 v
  · exact .refl s

theorem applyEvent_keeps (s : State) (e : EnvEvent) : Keeps s s.inh s.isr (applyEvent s e) := by
  have hrefl := Keeps.refl s
  cases e with
  | count r => exact (hrefl.post r).ite hrefl
  | keyRupt1 | keyRupt2 | downRupt | radarRupt => exact hrefl.raise _
  | handRupt => exact (hrefl.raise _).ite hrefl
  | channel c v => exact presentChannel_keeps s c v
  | scaler => exact advanceScaler_keeps s
  | drain c => exact (hrefl.setCounter c.off_ge _).ite hrefl

theorem atBoundary_keeps (s : State) : Keeps s s.inh s.isr (atBoundary s) := by
  refine atBoundary_induct (fun u e hu => ?_) s ((Keeps.refl s).setEnv _)
  have hact := hu.trans (applyEvent_keeps u e)
  rwa [hu.inh, hu.isr] at hact

/-! ### Every step -/

theorem goj_keeps (s : State) : Keeps s s.inh false (goj s) :=
  ((((Keeps.refl s).setIsr false).setExt false).jumpTo _).tick 2

theorem vectorTo_keeps (s : State) (i : Interrupt) : Keeps s s.inh true (vectorTo s i) :=
  (((Keeps.refl s).saveZ.saveB.setRuptReq _).setIsr true).jumpTo _

/-- The instruction that stands in B at the coming boundary. -/
def instrAt (s : State) : Instr := decode (atBoundary s).ext (atBoundary s).blit (atBoundary s).b

/-- The four things a step can be, each with what it does to INH and ISR. -/
theorem step_keeps (h : step s = .next t) :
    ((nextBoundary s).goj = true ∧ Keeps s s.inh false t)
      ∨ ((nextBoundary s).goj = false ∧ (atBoundary s).pending ≠ [] ∧ Keeps s s.inh s.isr t)
      ∨ (∃ i, TakesInterrupt s i ∧ Keeps s s.inh true t)
      ∨ (RunsInstruction s ∧ Keeps s (inhAfter (instrAt s) s.inh) (isrAfter (instrAt s) s.isr) t) := by
  have hu := atBoundary_keeps s
  rcases step_cases h with ⟨hgoj, rfl⟩ | ⟨hgoj, r, rest, hperm, rfl⟩ | ⟨i, htakes, rfl⟩ | ⟨hruns, hexec⟩
  · have ht := hu.trans (goj_keeps _)
    rw [hu.inh] at ht
    exact .inl ⟨hgoj, ht⟩
  · have hpending : (atBoundary s).pending ≠ [] := fun hnil => by simp [hnil] at hperm
    have hserve := hu.setPending rest
    have ht := hserve.trans (doSequence_keeps _ r)
    rw [hserve.inh, hserve.isr] at ht
    exact .inr (.inl ⟨hgoj, hpending, ht⟩)
  · have ht := hu.trans (vectorTo_keeps _ i)
    rw [hu.inh] at ht
    exact .inr (.inr (.inl ⟨i, htakes, ht⟩))
  · have ht := hu.trans (exec_keeps _ _ t hexec)
    rw [hu.inh, hu.isr] at ht
    exact .inr (.inr (.inr ⟨hruns, ht⟩))

/-! ### What comes before the instruction, and that it excludes it -/

theorem step_of_goj (h : step s = .next t) (hgoj : (nextBoundary s).goj = true) : Keeps s s.inh false t := by
  rcases step_keeps h with ⟨_, ht⟩ | ⟨hnot, _⟩ | ⟨i, ⟨hnot, _⟩, _⟩ | ⟨⟨hnot, _⟩, _⟩
  · exact ht
  all_goals simp [hgoj] at hnot

theorem step_of_takes {i : Interrupt} (h : step s = .next t) (htakes : TakesInterrupt s i) : Keeps s s.inh true t := by
  obtain ⟨hgoj, hpending, htake⟩ := htakes
  rcases step_keeps h with ⟨hyes, _⟩ | ⟨_, hsome, _⟩ | ⟨j, _, ht⟩ | ⟨⟨_, _, hnone⟩, _⟩
  · simp [hgoj] at hyes
  · exact absurd hpending hsome
  · exact ht
  · simp [htake] at hnone

theorem step_of_runs (h : step s = .next t) (hruns : RunsInstruction s) :
    Keeps s (inhAfter (instrAt s) s.inh) (isrAfter (instrAt s) s.isr) t := by
  obtain ⟨hgoj, hpending, hnone⟩ := hruns
  rcases step_keeps h with ⟨hyes, _⟩ | ⟨_, hsome, _⟩ | ⟨i, ⟨_, _, htake⟩, _⟩ | ⟨_, ht⟩
  · simp [hgoj] at hyes
  · exact absurd hpending hsome
  · simp [htake] at hnone
  · exact ht

end Sys2Proof.Machine
end

section
/-! The statements about every step: the invariant (O15) and the two flags (O11). -/

namespace Sys2Proof.Machine

/-- Settles O15: whatever the step is, it keeps the bounds of the memories. -/
theorem stepKeepsInv : Obligations.StepKeepsInv := by
  intro s t hs h
  rcases step_keeps h with ⟨_, ht⟩ | ⟨_, _, ht⟩ | ⟨_, _, ht⟩ | ⟨_, ht⟩ <;> exact ht.inv hs

/-- Settles O11: INH by `inhAfter`, ISR by `isrAfter` and by what comes before the instruction. -/
theorem flagWriters : Obligations.FlagWriters := by
  intro s t h u runs
  have decoded {i : Instr} (hi : runs i) : Keeps s (inhAfter i s.inh) (isrAfter i s.isr) t := by
    obtain ⟨hruns, rfl⟩ := hi
    exact step_of_runs h hruns
  refine ⟨fun hi => (decoded hi).inh, fun hi => (decoded hi).inh, fun hinhint hrelint => ?_,
    fun hgoj => (step_of_goj h hgoj).isr, fun hi => (decoded hi).isr, fun i hi => (step_of_takes h hi).isr,
    fun c hi => (decoded hi).isr, fun hgoj hresume htakes hedrupt => ?_⟩
  · rcases step_keeps h with ⟨_, ht⟩ | ⟨_, _, ht⟩ | ⟨_, _, ht⟩ | ⟨hruns, ht⟩
    · exact ht.inh
    · exact ht.inh
    · exact ht.inh
    · exact ht.inh.trans (inhAfter_other (fun hi => hinhint ⟨hruns, hi⟩) (fun hi => hrelint ⟨hruns, hi⟩) s.inh)
  · rcases step_keeps h with ⟨hyes, _⟩ | ⟨_, _, ht⟩ | ⟨i, hi, _⟩ | ⟨hruns, ht⟩
    · simp [hgoj] at hyes
    · exact ht.isr
    · exact absurd hi (htakes i)
    · exact ht.isr.trans (isrAfter_other (fun hi => hresume ⟨hruns, hi⟩) (fun c hi => hedrupt c ⟨hruns, hi⟩) s.isr)

end Sys2Proof.Machine
end

section
/-! The memory map: what each range of addresses resolves to and reads (20_memory.md R100 to R107). -/

namespace Sys2Proof.Machine

/-! ### Reading and writing depend on the location only -/

theorem memRead_of_resolve_eq {s : State} {k j : Addr} (h : resolve s k = resolve s j) :
    memRead s k = memRead s j := by
  unfold memRead
  rw [h]

theorem memWrite_of_resolve_eq {s : State} {k j : Addr} (h : resolve s k = resolve s j) (w : Word) :
    memWrite s k w = memWrite s j w := by
  unfold memWrite
  rw [h]

/-! ### Erasable memory -/

theorem eraseOff_toNat (k : Addr) : (eraseOff k).toNat = k.toNat % 0o400 := by
  simp [eraseOff]

/-- A cell that no register stands for is itself (10_state.md R21). -/
theorem eraseLoc_of_cell {bank : EBank} {off : EOff} (h : bank ≠ 0#3 ∨ 8 ≤ off.toNat) :
    eraseLoc bank off = .eras bank off := by
  unfold eraseLoc
  split
  · rename_i hbank
    rw [(cpuRegAt_eq_none_iff off).mpr (h.resolve_left (not_not_intro hbank))]
  · rfl

theorem resolve_erasable (s : State) {k : Addr} (h : k.toNat < 0o2000) :
    resolve s k = eraseLoc (eraseBank s k) (eraseOff k) := by
  rw [resolve, if_pos (by omega)]

/-- Unswitched erasable memory: the bank is in bits 11 to 9 of the address (R102, R103). -/
theorem eraseBank_unswitched (s : State) {k : Addr} (h : k.toNat < 0o1400) :
    (eraseBank s k).toNat = k.toNat / 0o400 := by
  rw [eraseBank, if_pos (by omega), BitVec.extractLsb'_toNat, Nat.shiftRight_eq_div_pow]
  omega

/-- In the window the bank is EBANK (R103). -/
theorem eraseBank_window (s : State) {k : Addr} (h : 0o1400 ≤ k.toNat) : eraseBank s k = s.ebank := by
  rw [eraseBank, if_neg (by omega)]

/-- An address of erasable memory that reaches no register reads the cell of its bank and offset. -/
theorem memRead_cell {s : State} {k : Addr} (h : k.toNat < 0o2000)
    (hcell : eraseBank s k ≠ 0#3 ∨ 8 ≤ k.toNat % 0o400) :
    memRead s k = s.erasable.read ((eraseBank s k).toNat * 0o400 + k.toNat % 0o400) := by
  rw [← eraseOff_toNat] at hcell ⊢
  rw [memRead, resolve_erasable s h, eraseLoc_of_cell hcell]
  rfl

theorem memRead_unswitched (s : State) {k : Addr} (hlo : 8 ≤ k.toNat) (hhi : k.toNat < 0o1400) :
    memRead s k = s.erasable.read k.toNat := by
  have hbank := eraseBank_unswitched s hhi
  have hcell : eraseBank s k ≠ 0#3 ∨ 8 ≤ k.toNat % 0o400 := by
    by_cases hlow : k.toNat < 0o400
    · exact .inr (by omega)
    · refine .inl fun hzero => ?_
      rw [hzero, BitVec.toNat_ofNat] at hbank
      omega
  rw [memRead_cell (by omega) hcell, hbank, Nat.div_add_mod']

theorem memRead_window {s : State} {k : Addr} (hlo : 0o1400 ≤ k.toNat) (hhi : k.toNat < 0o2000)
    (hcell : s.ebank ≠ 0#3 ∨ 0o1410 ≤ k.toNat) :
    memRead s k = s.erasable.read (s.ebank.toNat * 0o400 + (k.toNat - 0o1400)) := by
  have hoff : k.toNat % 0o400 = k.toNat - 0o1400 := by omega
  have hbank := eraseBank_window s hlo
  rw [memRead_cell hhi (hbank ▸ hcell.imp_right (by omega)), hbank, hoff]

/-- With EBANK = 0 the window is another name for the first 0o400 addresses, the registers among them (R104). -/
theorem resolve_window_zero {s : State} {k : Addr} (hbank : s.ebank = 0#3) (hlo : 0o1400 ≤ k.toNat)
    (hhi : k.toNat < 0o2000) : resolve s k = resolve s (k - 0o1400#12) := by
  have hsub : (k - 0o1400#12).toNat = k.toNat - 0o1400 := BitVec.toNat_sub_of_le (BitVec.le_def.mpr hlo)
  have hoff : eraseOff k = eraseOff (k - 0o1400#12) := by
    apply BitVec.eq_of_toNat_eq
    rw [eraseOff_toNat, eraseOff_toNat, hsub]
    omega
  have hlow : eraseBank s (k - 0o1400#12) = 0#3 := by
    apply BitVec.eq_of_toNat_eq
    rw [eraseBank_unswitched s (by omega), hsub, BitVec.toNat_ofNat]
    omega
  rw [resolve_erasable s hhi, resolve_erasable s (by omega), eraseBank_window s hlo, hbank, hlow, hoff]

/-! ### Fixed memory -/

theorem resolve_switched (s : State) {k : Addr} (hlo : 0o2000 ≤ k.toNat) (hhi : k.toNat < 0o4000) :
    resolve s k = fixedLoc (fixedBank s) (k.extractLsb' 0 10) := by
  rw [resolve, if_neg (by omega), if_pos (by omega)]

/-- Fixed-fixed memory is banks 2 and 3, whatever FBANK is (R105). -/
theorem resolve_fixedFixed (s : State) {k : Addr} (h : 0o4000 ≤ k.toNat) :
    resolve s k = .fixed (k.toNat / 0o2000) (k.extractLsb' 0 10) := by
  have hk := k.isLt
  rw [resolve, if_neg (by omega), if_neg (by omega)]
  split
  · rw [show k.toNat / 0o2000 = 2 by omega]
  · rw [show k.toNat / 0o2000 = 3 by omega]

theorem ropeKey_offset (bank : Nat) (k : Addr) :
    ropeKey bank (k.extractLsb' 0 10) = bank * 0o2000 + k.toNat % 0o2000 := by
  simp [ropeKey]

theorem memRead_fixedFixed (s : State) {k : Addr} (h : 0o4000 ≤ k.toNat) : memRead s k = s.rope.read k.toNat := by
  rw [memRead, resolve_fixedFixed s h]
  show s.rope.read (ropeKey _ _) = _
  rw [ropeKey_offset, Nat.div_add_mod']

/-- With a bank selected, a word of the switched window is that bank's; banks 0o44 to 0o47 do not exist (R106, R107). -/
theorem memRead_switched_bank {s : State} {k : Addr} {bank : Nat} (hlo : 0o2000 ≤ k.toNat) (hhi : k.toNat < 0o4000)
    (hbank : fixedBank s = some bank) :
    memRead s k = if bank ≤ 0o43 then s.rope.read (bank * 0o2000 + (k.toNat - 0o2000)) else Config.noRopeWord := by
  have hoff : k.toNat % 0o2000 = k.toNat - 0o2000 := by omega
  rw [memRead, resolve_switched s hlo hhi, hbank, ← hoff, ← ropeKey_offset]
  unfold fixedLoc
  by_cases hexists : bank ≤ 0o43
  · simp only [if_pos hexists]
  · simp only [if_neg hexists]

theorem memRead_switched_none {s : State} {k : Addr} (hlo : 0o2000 ≤ k.toNat) (hhi : k.toNat < 0o4000)
    (hbank : fixedBank s = none) : memRead s k = Config.noRopeWord := by
  rw [memRead, resolve_switched s hlo hhi, hbank]
  rfl

theorem sbank_bit_clear_iff (b : BitVec 3) : b.getLsbD 2 = false ↔ b.toNat < 4 := by revert b; decide

/-- FBANK alone selects the bank below 0o30, and while the superbank bit is 0 (R106). -/
theorem fixedBank_plain {s : State} (h : s.fbank.toNat < 0o30 ∨ s.sbank.toNat < 4) :
    fixedBank s = some s.fbank.toNat := by
  unfold fixedBank
  rcases h with h | h
  · rw [if_pos h]
  · rw [if_pos ((sbank_bit_clear_iff s.sbank).mpr h), ite_self]

/-- Past FBANK's own banks, superbank 4 adds 0o10 and every other selects no rope (R106, R107). -/
theorem fixedBank_super {s : State} (h : ¬(s.fbank.toNat < 0o30 ∨ s.sbank.toNat < 4)) :
    fixedBank s = if s.sbank.toNat = 4 then some (s.fbank.toNat + 0o10) else none := by
  obtain ⟨hfbank, hsbank⟩ := not_or.mp h
  have hiff : s.sbank = 0b100#3 ↔ s.sbank.toNat = 4 := BitVec.toNat_inj.symm
  rw [fixedBank, if_neg hfbank, if_neg (mt (sbank_bit_clear_iff s.sbank).mp hsbank)]
  simp only [hiff]

/-- Settles O18: one lemma per range of addresses; in the switched one, the bank FBANK and channel 7 select. -/
theorem memoryMap : Obligations.MemoryMap := by
  intro s k n
  refine ⟨fun hbank hlo hhi => ?_, fun hlo hhi => memRead_unswitched s hlo hhi,
    fun hlo hhi hcell => memRead_window hlo hhi hcell, fun hlo hhi => ?_, fun hlo => memRead_fixedFixed s hlo⟩
  · have hloc := resolve_window_zero hbank hlo (show k.toNat < 0o2000 by omega)
    exact ⟨memRead_of_resolve_eq hloc, memWrite_of_resolve_eq hloc⟩
  · by_cases hplain : s.fbank.toNat < 0o30 ∨ s.sbank.toNat < 4
    · have hexists : s.fbank.toNat ≤ 0o43 := by omega
      rw [memRead_switched_bank hlo hhi (fixedBank_plain hplain), if_pos hexists, if_pos hplain]
    · have hbank := fixedBank_super hplain
      rw [if_neg hplain]
      by_cases hsuper : s.sbank.toNat = 4
      · rw [if_pos hsuper] at hbank
        have hexists : s.fbank.toNat + 0o10 ≤ 0o43 ↔ s.sbank.toNat = 4 ∧ s.fbank.toNat < 0o34 := by omega
        rw [memRead_switched_bank hlo hhi hbank]
        simp only [hexists, n]
      · rw [if_neg hsuper] at hbank
        rw [memRead_switched_none hlo hhi hbank, if_neg fun hboth => hsuper hboth.1]

end Sys2Proof.Machine
end

section
/-! The bits a central register keeps of a word written to it (20_memory.md R110), and a field of a word as a mask. -/

namespace Sys2Proof.Machine

/-- A field of `n` bits cut out at bit `lo` and put back there is the word under a mask. -/
theorem field_shiftLeft_eq_and {m : Nat} (w : BitVec m) (lo n : Nat) :
    (w.extractLsb' lo n).setWidth m <<< lo = w &&& ((BitVec.allOnes n).setWidth m <<< lo) := by
  apply BitVec.eq_of_getLsbD_eq
  intro i hi
  by_cases hlo : i < lo
  · simp [hlo]
  · have hback : lo + (i - lo) = i := by omega
    simp [hlo, hi, hback, Bool.and_comm]

theorem ebWord_extract (w : Word) : ebWord (w.extractLsb' 8 3) = w &&& 0o03400#15 := field_shiftLeft_eq_and w 8 3

theorem fbWord_extract (w : Word) : fbWord (w.extractLsb' 10 5) = w &&& 0o76000#15 := field_shiftLeft_eq_and w 10 5

theorem zext15_extract (w : Word) : zext15 (w.extractLsb' 0 12) = w &&& 0o07777#15 := by
  have hfield := field_shiftLeft_eq_and w 0 12
  rwa [BitVec.shiftLeft_zero] at hfield

/-- BB keeps bits 15 to 11 and 3 to 1 (10_state.md R27). -/
theorem bbWord_extract (w : Word) : bbWord (w.extractLsb' 10 5) (w.extractLsb' 0 3) = w &&& 0o76007#15 := by
  have hlow := field_shiftLeft_eq_and w 0 3
  rw [BitVec.shiftLeft_zero] at hlow
  calc bbWord (w.extractLsb' 10 5) (w.extractLsb' 0 3)
      = (w &&& 0o76000#15) ||| (w &&& 0o00007#15) := congrArg₂ (· ||| ·) (fbWord_extract w) hlow
    _ = w &&& 0o76007#15 := BitVec.and_or_distrib_left.symm

theorem ebWord_toNat (e : EBank) : (ebWord e).toNat = e.toNat * 2 ^ 8 := by
  have := e.isLt
  rw [ebWord, BitVec.toNat_shiftLeft, BitVec.toNat_setWidth, Nat.shiftLeft_eq]
  omega

theorem fbWord_toNat (f : BitVec 5) : (fbWord f).toNat = f.toNat * 2 ^ 10 := by
  have := f.isLt
  rw [fbWord, BitVec.toNat_shiftLeft, BitVec.toNat_setWidth, Nat.shiftLeft_eq]
  omega

theorem bbWord_toNat (f : BitVec 5) (e : EBank) : (bbWord f e).toNat = f.toNat * 2 ^ 10 + e.toNat := by
  have he := e.isLt
  have hlow : e.toNat < 2 ^ 10 := by omega
  rw [bbWord, BitVec.toNat_or, fbWord_toNat, BitVec.toNat_setWidth, Nat.mod_eq_of_lt (by omega), ← Nat.shiftLeft_eq,
    Nat.shiftLeft_add_eq_or_of_lt hlow]

/-! ### Addresses 0 to 7 -/

/-- The address of a central register (10_state.md R21). -/
def CpuReg.addr : CpuReg → Addr
  | .a => 0#12
  | .l => 1#12
  | .q => 2#12
  | .eb => 3#12
  | .fb => 4#12
  | .z => 5#12
  | .bb => 6#12
  | .zero => 7#12

theorem resolve_regAddr (s : State) (r : CpuReg) : resolve s r.addr = .reg r := by cases r <;> rfl

theorem memRead_regAddr (s : State) (r : CpuReg) : memRead s r.addr = regRead15 s r := by
  rw [memRead, resolve_regAddr]

theorem memWrite_regAddr (s : State) (r : CpuReg) (w : Word) : memWrite s r.addr w = regWrite15 s r w := by
  rw [memWrite, resolve_regAddr]

/-- The bits a central register keeps of a 15-bit word; address 7 keeps none (R110, decision D17). -/
def CpuReg.ownBits : CpuReg → Word
  | .a => 0o77777#15
  | .l => 0o77777#15
  | .q => 0o77777#15
  | .eb => 0o03400#15
  | .fb => 0o76000#15
  | .z => 0o07777#15
  | .bb => 0o76007#15
  | .zero => 0o00000#15

/-- A central register reads its own bits of the word last written to it. -/
theorem regRead15_regWrite15 (s : State) (r : CpuReg) (w : Word) :
    regRead15 (regWrite15 s r w) r = w &&& r.ownBits := by
  have hall : w = w &&& 0o77777#15 := BitVec.and_allOnes.symm
  cases r with
  | a => exact (ovc_sext16 w).trans hall
  | l => exact hall
  | q => exact (ovc_sext16 w).trans hall
  | eb => exact ebWord_extract w
  | fb => exact fbWord_extract w
  | z => exact zext15_extract w
  | bb => exact bbWord_extract w
  | zero => exact BitVec.and_zero.symm

theorem memRead_memWrite_regAddr (s : State) (r : CpuReg) (w : Word) :
    memRead (memWrite s r.addr w) r.addr = w &&& r.ownBits := by
  rw [memRead_regAddr, memWrite_regAddr, regRead15_regWrite15]

/-- A, L and Q keep the whole word. -/
theorem memRead_memWrite_whole (s : State) {r : CpuReg} (h : r.ownBits = BitVec.allOnes 15) (w : Word) :
    memRead (memWrite s r.addr w) r.addr = w := by
  rw [memRead_memWrite_regAddr, h, BitVec.and_allOnes]

/-- With EBANK = 0 the registers are reached through the window too (R104). -/
theorem resolve_window_reg {s : State} {k : Addr} (hbank : s.ebank = 0#3) (hk : k < 8#12) :
    resolve s (0o1400#12 + k) = resolve s k := by
  have hlow : k.toNat < 8 := BitVec.lt_def.mp hk
  have hadd : (0o1400#12 + k).toNat = 0o1400 + k.toNat := by
    rw [BitVec.toNat_add, BitVec.toNat_ofNat]
    omega
  rw [resolve_window_zero hbank (by omega) (by omega), BitVec.add_comm, BitVec.add_sub_cancel]

/-- Settles O19: each address from 0 to 7 is a register, which reads its own bits of what was written. -/
theorem registerWords : Obligations.RegisterWords := by
  intro s w
  have read := memRead_regAddr s
  have whole {r : CpuReg} (h : r.ownBits = BitVec.allOnes 15) := memRead_memWrite_whole s h w
  have own (r : CpuReg) := memRead_memWrite_regAddr s r w
  refine ⟨⟨read .a, read .l, read .q, ?_, ?_, ?_, ?_⟩, fun k hbank hk => ?_, whole (r := .a) rfl, whole (r := .l) rfl,
    whole (r := .q) rfl, own .eb, own .fb, own .z, own .bb, memWrite_regAddr s .zero w, read .zero⟩
  · exact (congrArg BitVec.toNat (read .eb)).trans (ebWord_toNat s.ebank)
  · exact (congrArg BitVec.toNat (read .fb)).trans (fbWord_toNat s.fbank)
  · exact (congrArg BitVec.toNat (read .z)).trans (zext15_toNat s.z)
  · exact (congrArg BitVec.toNat (read .bb)).trans (bbWord_toNat s.fbank s.ebank)
  · have hloc := resolve_window_reg hbank hk
    exact ⟨memRead_of_resolve_eq hloc, memWrite_of_resolve_eq hloc w⟩

end Sys2Proof.Machine
end

section
/-! What the channels hold after a channel write (20_memory.md R118). -/

namespace Sys2Proof.Machine

/-! ### The registers among the channels, and the others -/

@[simp] theorem chanRead_l (s : State) : chanRead s 1#9 = sext16 s.l := rfl

@[simp] theorem chanRead_q (s : State) : chanRead s 2#9 = s.q := rfl

@[simp] theorem chanRead_superbank (s : State) : chanRead s 7#9 = s.sbank.setWidth 16 <<< 4 := rfl

theorem chanRead_ordinary (s : State) {c : ChanNo} (h1 : c ≠ 1#9) (h2 : c ≠ 2#9) (h7 : c ≠ 7#9) :
    chanRead s c = sext16 (s.chan.read c.toNat) := by
  rw [chanRead, if_neg h1, if_neg h2, if_neg h7]

/-! ### A read of the written channel -/

/-- Channel 7 keeps bits 7 to 5 (10_state.md R80). -/
theorem chanRead_chanWrite_superbank (s : State) (v : Acc) :
    chanRead (chanWrite s 7#9 v) 7#9 = v &&& 0o000160#16 := field_shiftLeft_eq_and v 4 3

/-- What the environment presents at an input channel stays (92_eei_decisions.md D18). -/
theorem chanRead_chanWrite_input {s : State} {c : ChanNo} (h : isInput s c = true) (v : Acc) :
    chanRead (chanWrite s c v) c = chanRead s c := by
  obtain ⟨h1, h2, h7⟩ := isInput_ordinary h
  rw [chanRead_ordinary _ h1 h2 h7, chanRead_ordinary _ h1 h2 h7, chanWrite_eq]
  simp only [h, or_true, if_true]

/-- L and every ordinary channel that is no input take the overflow-corrected word. -/
theorem chanRead_chanWrite_corrected {s : State} {c : ChanNo} (h2 : c ≠ 2#9) (h7 : c ≠ 7#9)
    (h : isInput s c ≠ true) (v : Acc) : chanRead (chanWrite s c v) c = sext16 (ovc v) := by
  by_cases h1 : c = 1#9
  · subst h1
    rfl
  · have hstored : ¬(c = 1#9 ∨ c = 2#9 ∨ c = 7#9 ∨ isInput s c = true) := by
      simp [h1, h2, h7, h]
    rw [chanRead_ordinary _ h1 h2 h7, chanWrite_eq]
    dsimp only
    rw [if_neg hstored, Memory.read_write, if_pos rfl]

/-! ### A read of another channel -/

/-- An ordinary channel's word is touched by a write to that channel only. -/
theorem chanWrite_chan_read_ne (s : State) {c d : ChanNo} (h : d ≠ c) (v : Acc) :
    (chanWrite s c v).chan.read d.toNat = s.chan.read d.toNat := by
  have hkey : c.toNat ≠ d.toNat := fun he => h (BitVec.eq_of_toNat_eq he.symm)
  rw [chanWrite_eq]
  dsimp only
  split
  · rfl
  · rw [Memory.read_write, if_neg hkey]

theorem chanRead_chanWrite_ne (s : State) {c d : ChanNo} (h : d ≠ c) (v : Acc) :
    chanRead (chanWrite s c v) d = chanRead s d := by
  unfold chanRead
  rw [chanWrite_chan_read_ne s h, chanWrite_eq]
  split
  · subst d
    simp only [if_neg h.symm]
  · split
    · subst d
      simp only [if_neg h.symm]
    · split
      · subst d
        simp only [if_neg h.symm]
      · rfl

/-- Settles O21: the written channel by its kind, and every other channel as it was. -/
theorem channelStorage : Obligations.ChannelStorage := by
  intro s c v
  refine ⟨?_, fun d hd => chanRead_chanWrite_ne s hd v⟩
  split
  case isTrue h2 =>
    subst h2
    rfl
  case isFalse h2 =>
    split
    case isTrue h7 =>
      subst h7
      exact chanRead_chanWrite_superbank s v
    case isFalse h7 =>
      split
      case isTrue hinput => exact chanRead_chanWrite_input ((isInput_iff s c).mpr hinput) v
      case isFalse hinput => exact chanRead_chanWrite_corrected h2 h7 (mt (isInput_iff s c).mp hinput) v

end Sys2Proof.Machine
end

section
/-! Fixed memory is read-only (20_memory.md R111). -/

namespace Sys2Proof.Machine

/-- Settles O14: whatever the step is, its operations leave the ropes as they were. -/
theorem fixedMemoryReadOnly : Obligations.FixedMemoryReadOnly := by
  intro s t h
  rcases step_keeps h with ⟨_, ht⟩ | ⟨_, _, ht⟩ | ⟨_, _, ht⟩ | ⟨_, ht⟩ <;> exact ht.rope

end Sys2Proof.Machine
end

section
/-! The encoding: the parts of an instruction's word, and that the decoder and the encoder are each other's inverse
(30_encoding.md R151 to R160). -/

namespace Sys2Proof

/-! ### The parts of a word (R151) -/

@[simp] theorem codeOf_word12 (c : BitVec 3) (k : Addr) : codeOf (word12 c k) = c :=
  BitVec.extractLsb'_append_eq_left

@[simp] theorem a12Of_word12 (c : BitVec 3) (k : Addr) : a12Of (word12 c k) = k :=
  BitVec.extractLsb'_append_eq_right

@[simp] theorem qcOf_word12 (c : BitVec 3) (k : Addr) : qcOf (word12 c k) = k.extractLsb' 10 2 :=
  BitVec.extractLsb'_append_eq_of_add_le (by decide)

@[simp] theorem codeOf_word10 (c : BitVec 3) (q : BitVec 2) (k : EAddr) : codeOf (word10 c q k) = c :=
  codeOf_word12 c _

@[simp] theorem qcOf_word10 (c : BitVec 3) (q : BitVec 2) (k : EAddr) : qcOf (word10 c q k) = q :=
  (qcOf_word12 c _).trans BitVec.extractLsb'_append_eq_left

@[simp] theorem a10Of_word10 (c : BitVec 3) (q : BitVec 2) (k : EAddr) : a10Of (word10 c q k) = k :=
  (BitVec.extractLsb'_append_eq_of_add_le (by decide)).trans BitVec.extractLsb'_append_eq_right

@[simp] theorem codeOf_word9 (p : BitVec 3) (c : ChanNo) : codeOf (word9 p c) = 0#3 :=
  codeOf_word12 0#3 _

@[simp] theorem pcOf_word9 (p : BitVec 3) (c : ChanNo) : pcOf (word9 p c) = p :=
  (BitVec.extractLsb'_append_eq_of_add_le (by decide)).trans BitVec.extractLsb'_append_eq_left

@[simp] theorem c9Of_word9 (p : BitVec 3) (c : ChanNo) : c9Of (word9 p c) = c :=
  (BitVec.extractLsb'_append_eq_of_add_le (by decide)).trans BitVec.extractLsb'_append_eq_right

/-- A word's code and 12-bit address are all of it. -/
theorem word12_parts (w : Word) : word12 (codeOf w) (a12Of w) = w :=
  (BitVec.extractLsb'_append_extractLsb'_eq_extractLsb' (start₂ := 12) (start₁ := 0) rfl).trans
    BitVec.extractLsb'_eq_self

theorem qcOf_append_a10Of (w : Word) : qcOf w ++ a10Of w = a12Of w :=
  BitVec.extractLsb'_append_extractLsb'_eq_extractLsb' (start₂ := 10) (start₁ := 0) rfl

theorem pcOf_append_c9Of (w : Word) : pcOf w ++ c9Of w = a12Of w :=
  BitVec.extractLsb'_append_extractLsb'_eq_extractLsb' (start₂ := 9) (start₁ := 0) rfl

variable {w : Word} {c p : BitVec 3} {q : BitVec 2}

theorem word12_of_code (hc : (codeOf w).toNat = c.toNat) : word12 c (a12Of w) = w := by
  rw [← BitVec.eq_of_toNat_eq hc, word12_parts]

theorem word10_of_codes (hc : (codeOf w).toNat = c.toNat) (hq : (qcOf w).toNat = q.toNat) :
    word10 c q (a10Of w) = w := by
  rw [word10, ← BitVec.eq_of_toNat_eq hq, qcOf_append_a10Of]
  exact word12_of_code hc

theorem word9_of_codes (hc : (codeOf w).toNat = 0) (hp : (pcOf w).toNat = p.toNat) : word9 p (c9Of w) = w := by
  rw [word9, ← BitVec.eq_of_toNat_eq hp, pcOf_append_c9Of]
  exact word12_of_code hc

/-- The quarter code is the top of the 12-bit address: where it is not 00 the address is in fixed memory. -/
theorem isFixedAddr_a12Of (hq : qcOf w ≠ 0) : isFixedAddr (a12Of w) = true := by
  rw [← word12_parts w, qcOf_word12] at hq
  exact bne_iff_ne.mpr hq

/-- The last branch on a 3-bit code. -/
theorem toNat_eq_seven {c : BitVec 3} (h0 : c.toNat ≠ 0) (h1 : c.toNat ≠ 1) (h2 : c.toNat ≠ 2) (h3 : c.toNat ≠ 3)
    (h4 : c.toNat ≠ 4) (h5 : c.toNat ≠ 5) (h6 : c.toNat ≠ 6) : c.toNat = 7 := by
  have := c.isLt
  omega

/-- The last branch on a quarter code. -/
theorem toNat_eq_three {q : BitVec 2} (h0 : q.toNat ≠ 0) (h1 : q.toNat ≠ 1) (h2 : q.toNat ≠ 2) : q.toNat = 3 := by
  have := q.isLt
  omega

/-! ### What the decoder gives (R156) -/

/-- `i` is a well-formed instruction of its own name, special (R157) or not, and `w` is its word under the Extracode
flag `ext`. -/
structure Names (ext special : Bool) (w : Word) (i : Instr) : Prop where
  word : encode i = w
  flag : extOf i = ext
  wellFormed : i.wellFormed = true
  canonical : i.canonical = i
  isSpecial : i.isSpecial = special

theorem decodeSpecial_names {i : Instr} (h : decodeSpecial w = some i) : Names false true w i := by
  unfold decodeSpecial at h
  split_ifs at h with h3 h4 h6 h17
  · cases h; exact ⟨h3.symm, rfl, rfl, rfl, rfl⟩
  · cases h; exact ⟨h4.symm, rfl, rfl, rfl, rfl⟩
  · cases h; exact ⟨h6.symm, rfl, rfl, rfl, rfl⟩
  · cases h; exact ⟨h17.symm, rfl, rfl, rfl, rfl⟩

theorem decodeBasic_names (w : Word) : Names false false w (decodeBasic w) := by
  unfold decodeBasic
  split
  case h_1 hc => exact ⟨word12_of_code hc, rfl, rfl, rfl, rfl⟩
  case h_2 hc =>
    split
    case isTrue hq => exact ⟨word10_of_codes hc (congrArg _ hq), rfl, rfl, rfl, rfl⟩
    case isFalse hq => exact ⟨word12_of_code hc, rfl, isFixedAddr_a12Of hq, rfl, rfl⟩
  case h_3 hc =>
    split
    case h_1 hq => exact ⟨word10_of_codes hc hq, rfl, rfl, rfl, rfl⟩
    case h_2 hq => exact ⟨word10_of_codes hc hq, rfl, rfl, rfl, rfl⟩
    case h_3 hq => exact ⟨word10_of_codes hc hq, rfl, rfl, rfl, rfl⟩
    case h_4 h0 h1 h2 => exact ⟨word10_of_codes hc (toNat_eq_three h0 h1 h2), rfl, rfl, rfl, rfl⟩
  case h_4 hc => exact ⟨word12_of_code hc, rfl, rfl, rfl, rfl⟩
  case h_5 hc => exact ⟨word12_of_code hc, rfl, rfl, rfl, rfl⟩
  case h_6 hc =>
    split
    case h_1 hq => exact ⟨word10_of_codes hc hq, rfl, rfl, rfl, rfl⟩
    case h_2 hq => exact ⟨word10_of_codes hc hq, rfl, rfl, rfl, rfl⟩
    case h_3 hq => exact ⟨word10_of_codes hc hq, rfl, rfl, rfl, rfl⟩
    case h_4 h0 h1 h2 => exact ⟨word10_of_codes hc (toNat_eq_three h0 h1 h2), rfl, rfl, rfl, rfl⟩
  case h_7 hc => exact ⟨word12_of_code hc, rfl, rfl, rfl, rfl⟩
  case h_8 h0 h1 h2 h3 h4 h5 h6 => exact ⟨word12_of_code (toNat_eq_seven h0 h1 h2 h3 h4 h5 h6), rfl, rfl, rfl, rfl⟩

theorem decodeExtra_names (w : Word) : Names true false w (decodeExtra w) := by
  unfold decodeExtra
  split
  case h_1 hc =>
    split
    case h_1 hp => exact ⟨word9_of_codes hc hp, rfl, rfl, rfl, rfl⟩
    case h_2 hp => exact ⟨word9_of_codes hc hp, rfl, rfl, rfl, rfl⟩
    case h_3 hp => exact ⟨word9_of_codes hc hp, rfl, rfl, rfl, rfl⟩
    case h_4 hp => exact ⟨word9_of_codes hc hp, rfl, rfl, rfl, rfl⟩
    case h_5 hp => exact ⟨word9_of_codes hc hp, rfl, rfl, rfl, rfl⟩
    case h_6 hp => exact ⟨word9_of_codes hc hp, rfl, rfl, rfl, rfl⟩
    case h_7 hp => exact ⟨word9_of_codes hc hp, rfl, rfl, rfl, rfl⟩
    case h_8 h0 h1 h2 h3 h4 h5 h6 =>
      exact ⟨word9_of_codes hc (toNat_eq_seven h0 h1 h2 h3 h4 h5 h6), rfl, rfl, rfl, rfl⟩
  case h_2 hc =>
    split
    case isTrue hq => exact ⟨word10_of_codes hc (congrArg _ hq), rfl, rfl, rfl, rfl⟩
    case isFalse hq => exact ⟨word12_of_code hc, rfl, isFixedAddr_a12Of hq, rfl, rfl⟩
  case h_3 hc =>
    split
    case h_1 hq => exact ⟨word10_of_codes hc hq, rfl, rfl, rfl, rfl⟩
    case h_2 hq => exact ⟨word10_of_codes hc hq, rfl, rfl, rfl, rfl⟩
    case h_3 hq => exact ⟨word10_of_codes hc hq, rfl, rfl, rfl, rfl⟩
    case h_4 h0 h1 h2 => exact ⟨word10_of_codes hc (toNat_eq_three h0 h1 h2), rfl, rfl, rfl, rfl⟩
  case h_4 hc => exact ⟨word12_of_code hc, rfl, rfl, rfl, rfl⟩
  case h_5 hc => exact ⟨word12_of_code hc, rfl, rfl, rfl, rfl⟩
  case h_6 hc => exact ⟨word12_of_code hc, rfl, rfl, rfl, rfl⟩
  case h_7 hc =>
    split
    case isTrue hq => exact ⟨word10_of_codes hc (congrArg _ hq), rfl, rfl, rfl, rfl⟩
    case isFalse hq => exact ⟨word12_of_code hc, rfl, isFixedAddr_a12Of hq, rfl, rfl⟩
  case h_8 h0 h1 h2 h3 h4 h5 h6 => exact ⟨word12_of_code (toNat_eq_seven h0 h1 h2 h3 h4 h5 h6), rfl, rfl, rfl, rfl⟩

/-! ### The words that are special or literal (R157, 45_special_control.md R366) -/

theorem onlyLiteral_iff (i : Instr) :
    i.onlyLiteral = true ↔
      i.canonical = .tc 3 ∨ i.canonical = .tc 4 ∨ i.canonical = .tc 6 ∨ i.canonical = .index 0o17#10 := by
  simp only [Instr.onlyLiteral, Bool.or_eq_true, beq_iff_eq, or_assoc]

/-- INDEX is needed for a basic instruction exactly when its word is a special one. -/
theorem onlyLiteral_decodeBasic (w : Word) : (decodeBasic w).onlyLiteral = (decodeSpecial w).isSome := by
  obtain ⟨hword, -, -, hcanon, -⟩ := decodeBasic_names w
  rw [Bool.eq_iff_iff, onlyLiteral_iff, hcanon]
  constructor
  · rintro (h | h | h | h)
    all_goals
      rw [h] at hword
      subst hword
      rfl
  · intro h
    unfold decodeSpecial at h
    split_ifs at h with h3 h4 h6 h17
    · subst h3; exact .inl rfl
    · subst h4; exact .inr (.inl rfl)
    · subst h6; exact .inr (.inr (.inl rfl))
    · subst h17; exact .inr (.inr (.inr rfl))
    · cases h

/-- No extracode is literal only. -/
theorem Names.onlyLiteral_extra {special : Bool} {i : Instr} (h : Names true special w i) : i.onlyLiteral = false := by
  rw [Bool.eq_false_iff, Ne, onlyLiteral_iff, h.canonical]
  have hflag := h.flag
  rintro (rfl | rfl | rfl | rfl) <;> cases hflag

/-- A special instruction is its own, so it is not literal only. -/
theorem onlyLiteral_of_isSpecial {i : Instr} (h : i.isSpecial = true) : i.onlyLiteral = false := by
  cases i
  case relint | inhint | extend | resume => rfl
  all_goals cases h

theorem decode_ext (blit : Bool) (w : Word) : decode true blit w = decodeExtra w := rfl

theorem decode_literal (w : Word) : decode false true w = decodeBasic w := rfl

theorem decode_of_special {i : Instr} (h : decodeSpecial w = some i) : decode false false w = i := by
  simp [decode, h]

theorem decode_of_not_special (h : decodeSpecial w = none) : decode false false w = decodeBasic w := by
  simp [decode, h]

/-! ### Encoding what is decoded -/

theorem fitsBlit_iff (i : Instr) (blit : Bool) :
    i.fitsBlit blit = true ↔ (i.onlyLiteral = true → blit = true) ∧ (i.isSpecial = true → blit = false) := by
  cases blit <;> simp [Instr.fitsBlit]

theorem decode_names (ext blit : Bool) (w : Word) :
    ∃ special, Names ext special w (decode ext blit w) ∧ (decode ext blit w).fitsBlit blit = true := by
  simp only [fitsBlit_iff]
  cases ext
  case true =>
    have h := decodeExtra_names w
    exact ⟨_, h, by simp [decode_ext, h.onlyLiteral_extra, h.isSpecial]⟩
  case false =>
    have h := decodeBasic_names w
    cases blit
    case true => exact ⟨_, h, by simp [decode_literal, h.isSpecial]⟩
    case false =>
      cases hs : decodeSpecial w
      case some i =>
        have hi := decodeSpecial_names hs
        rw [decode_of_special hs]
        exact ⟨_, hi, by simp [onlyLiteral_of_isSpecial hi.isSpecial]⟩
      case none =>
        rw [decode_of_not_special hs]
        exact ⟨_, h, by simp [onlyLiteral_decodeBasic, hs]⟩

/-- Settles O3: each of the three tables the decoder reads gives an instruction that names its word. -/
theorem encodeOfDecode : Obligations.EncodeOfDecode := by
  intro ext blit w
  obtain ⟨_, h, hfits⟩ := decode_names ext blit w
  exact ⟨h.word, h.flag, h.wellFormed, hfits, h.canonical⟩

/-! ### Decoding what is encoded -/

theorem decodeBasic_encode {i : Instr} (hext : extOf i = false) (hspecial : i.isSpecial = false)
    (hwf : i.wellFormed = true) : decodeBasic (encode i) = i.canonical := by
  cases i
  case tcf k =>
    have hq : k.extractLsb' 10 2 ≠ 0#2 := bne_iff_ne.mp hwf
    simp [encode, decodeBasic, Instr.canonical, hq]
  case tc k | ca k | cs k | ad k | mask k | tcr k | cae k | caf k | msk k
      | ccs k | das k | lxch k | incr k | ads k | index k | dxch k | ts k | xch k | ndx k =>
    simp [encode, decodeBasic, Instr.canonical]
  case xxalq | xlq | returnQ | noop | ddoubl | zl | com | dtcf | dtcb | ovsk | tcaa | double => rfl
  case relint | inhint | extend | resume => cases hspecial
  all_goals cases hext

theorem decodeExtra_encode {i : Instr} (hext : extOf i = true) (hwf : i.wellFormed = true) :
    decodeExtra (encode i) = i.canonical := by
  cases i
  case bzf k | bzmf k =>
    have hq : k.extractLsb' 10 2 ≠ 0#2 := bne_iff_ne.mp hwf
    simp [encode, decodeExtra, Instr.canonical, hq]
  case dca k | dcs k | indexExt k | mp k | ndxExt k | dv k | msu k | qxch k | aug k | dim k | su k
      | read c | write c | rand c | wand c | ror c | wor c | rxor c | edrupt c =>
    simp [encode, decodeExtra, Instr.canonical]
  case zq | dcom | square => rfl
  all_goals cases hext

/-- The special words decode to the special instructions while BLIT is 0 (R157). -/
theorem decode_encode_special {i : Instr} (h : i.isSpecial = true) :
    decode (extOf i) false (encode i) = i.canonical := by
  cases i
  case relint | inhint | extend | resume => rfl
  all_goals cases h

/-- A word that is not a special one decodes alike under both values of BLIT. -/
theorem decode_basic (blit : Bool) (h : (decodeBasic w).onlyLiteral = true → blit = true) :
    decode false blit w = decodeBasic w := by
  cases blit
  case true => exact decode_literal w
  case false =>
    rw [onlyLiteral_decodeBasic] at h
    exact decode_of_not_special (Option.isNone_iff_eq_none.mp (by simpa using h))

/-- Whether INDEX is needed depends on the instruction a word decodes to, whatever name it was written with. -/
theorem onlyLiteral_decodeBasic_encode {i : Instr} (h : decodeBasic (encode i) = i.canonical) :
    (decodeBasic (encode i)).onlyLiteral = i.onlyLiteral := by
  rw [Bool.eq_iff_iff, onlyLiteral_iff, onlyLiteral_iff, (decodeBasic_names _).canonical, h]

/-- Settles O2: by the table that holds the instruction: extracode, special or basic. -/
theorem decodeOfEncode : Obligations.DecodeOfEncode := by
  intro i blit hwf hfits
  obtain ⟨hliteral, hspecial⟩ := (fitsBlit_iff i blit).mp hfits
  cases hext : extOf i
  case true => exact decodeExtra_encode hext hwf
  case false =>
    cases hs : i.isSpecial
    case true =>
      cases hspecial hs
      rw [← decode_encode_special hs, hext]
    case false =>
      have hbasic := decodeBasic_encode hext hs hwf
      rw [decode_basic blit (onlyLiteral_decodeBasic_encode hbasic ▸ hliteral), hbasic]

/-! ### Samples -/

/-- Settles O1: each clause evaluates the decoder on one word. -/
theorem decodeSampleWords : Obligations.DecodeSampleWords := by
  unfold Obligations.DecodeSampleWords
  decide

end Sys2Proof
end

section
/-! One's-complement addition: a 16-bit value stands for an integer, and addition with end-around carry for the sum of
integers (40_common_arithmetic.md R190, R195, R196). -/

namespace Sys2Proof.Machine

/-- The 16-bit value stands for `v` in one's complement; 0 has both of its forms. -/
def StandsFor (a : Acc) (v : Int) : Prop := (0 ≤ v ∧ (a.toNat : Int) = v) ∨ (v ≤ 0 ∧ (a.toNat : Int) = v + 0o177777)

theorem val_bounds (w : Word) : -16383 ≤ val w ∧ val w ≤ 16383 := by
  have hw := w.isLt
  rw [val_eq]
  split <;> omega

theorem standsFor_sext16 (w : Word) : StandsFor (sext16 w) (val w) := by
  have hw := w.isLt
  unfold StandsFor
  rw [sext16_toNat, val_eq]
  split <;> omega

variable {a b : Acc} {v w : Int}

/-- The end-around carry arises where a negative summand leaves 0o177777 too much. -/
theorem StandsFor.add1c16 (ha : StandsFor a v) (hb : StandsFor b w) (hlo : -0o77777 < v + w) (hhi : v + w < 0o77777) :
    StandsFor (add1c16 a b) (v + w) := by
  unfold StandsFor
  rw [add1c16_toNat]
  rcases ha with ⟨hv, ha⟩ | ⟨hv, ha⟩ <;> rcases hb with ⟨hw, hb⟩ | ⟨hw, hb⟩ <;> split <;> omega

theorem StandsFor.ovf_pos_iff (h : StandsFor a v) (hlo : -0o77777 < v) (hhi : v < 0o77777) :
    ovf a = .pos ↔ 16383 < v := by
  rw [Machine.ovf_pos_iff]
  rcases h with ⟨hv, ha⟩ | ⟨hv, ha⟩ <;> omega

theorem StandsFor.ovf_neg_iff (h : StandsFor a v) (hlo : -0o77777 < v) (hhi : v < 0o77777) :
    ovf a = .neg ↔ v < -16383 := by
  rw [Machine.ovf_neg_iff]
  rcases h with ⟨hv, ha⟩ | ⟨hv, ha⟩ <;> omega

theorem StandsFor.val_ovc (h : StandsFor a v) (hlo : -0o77777 < v) (hhi : v < 0o77777) (hnone : ovf a = .none) :
    val (ovc a) = v := by
  rw [ovf_none_iff] at hnone
  rw [val_eq, ovc_toNat]
  rcases h with ⟨hv, ha⟩ | ⟨hv, ha⟩ <;> split <;> omega

/-- Settles O17: the sum of two words stands for the sum of their values. -/
theorem onesComplementSum : Obligations.OnesComplementSum := by
  intro x y sum
  obtain ⟨hxlo, hxhi⟩ := val_bounds x
  obtain ⟨hylo, hyhi⟩ := val_bounds y
  have hlo : -0o77777 < val x + val y := by omega
  have hhi : val x + val y < 0o77777 := by omega
  have hsum : StandsFor sum (val x + val y) :=
    (standsFor_sext16 x).add1c16 (standsFor_sext16 y) hlo hhi
  exact ⟨hsum.ovf_pos_iff hlo hhi, hsum.ovf_neg_iff hlo hhi,
    fun hnone => ⟨hsum.val_ovc hlo hhi hnone, sext16_ovc hnone⟩⟩

end Sys2Proof.Machine
end

section
/-! EXT and BLIT after an instruction (40_common_arithmetic.md R202, 10_state.md R32): by the ending of its meaning. -/

namespace Sys2Proof.Machine

/-- A meaning's answer, if it goes on, has EXT and BLIT clear. -/
def EndsPlain (r : Result) : Prop := ∀ t, r = .next t → t.ext = false ∧ t.blit = false

namespace EndsPlain

protected theorem done (u : State) (n : Nat) : EndsPlain (done u n) := by
  rintro t ⟨⟩
  exact ⟨rfl, rfl⟩

protected theorem doneB {u : State} (hblit : u.blit = false) (n : Nat) : EndsPlain (doneB u n) := by
  rintro t ⟨⟩
  exact ⟨rfl, hblit⟩

protected theorem refused (r : Refusal) : EndsPlain (.refused r) := by
  intro t hr
  cases hr

protected theorem ite {p : Prop} [Decidable p] {r r' : Result} (hr : EndsPlain r) (hr' : EndsPlain r') :
    EndsPlain (if p then r else r') := by
  split
  · exact hr
  · exact hr'

end EndsPlain

/-! ### The meanings with more than one ending -/

theorem transferControl_endsPlain (k : Addr) (s : State) (n : Nat) : EndsPlain (transferControl k s n) := .doneB rfl n

theorem transferNoReturn_endsPlain (k : Addr) (s : State) : EndsPlain (transferNoReturn k s) := .doneB rfl 1

theorem execDv_endsPlain (k : EAddr) (s : State) : EndsPlain (execDv k s) := by
  unfold execDv
  dsimp only
  split
  · exact .done _ 6
  · exact .done _ 6

theorem multiply_endsPlain (k : Addr) (s : State) : EndsPlain (multiply k s) := .ite (.done _ 3) (.done _ 3)

theorem doubleAddToStorage_endsPlain (f : Addr) (s : State) : EndsPlain (doubleAddToStorage f s) :=
  .ite (.refused _) (.ite (.done _ 3) (.done _ 3))

theorem doubleClearAndAdd_endsPlain (f : Addr) (s : State) : EndsPlain (doubleClearAndAdd f s) :=
  .ite (.refused _) (.ite (.done _ 3) (.done _ 3))

theorem doubleClearAndSubtract_endsPlain (f : Addr) (s : State) : EndsPlain (doubleClearAndSubtract f s) :=
  .ite (.refused _) (.ite (.done _ 3) (.done _ 3))

theorem doubleExchange_endsPlain (f : Addr) (s : State) : EndsPlain (doubleExchange f s) :=
  .ite (.refused _) (.ite (.done _ 3) (.done _ 3))

/-! ### Every instruction -/

/-- Only EXTEND and INDEX have an ending of their own. -/
theorem exec_endsPlain {i : Instr} (hextend : i ≠ .extend) (hindex : i.isIndex = false) (s : State) :
    EndsPlain (exec i s) := by
  cases i with
  | extend => exact absurd rfl hextend
  | index | indexExt | ndx | ndxExt => cases hindex
  | tc k | tcr k => exact transferControl_endsPlain k s 1
  | xxalq | xlq | returnQ => exact transferControl_endsPlain _ s 1
  | tcf k => exact transferNoReturn_endsPlain k s
  | bzf k | bzmf k => exact .ite (transferNoReturn_endsPlain k s) (.done s 2)
  | resume => exact .doneB rfl 2
  | edrupt => exact .doneB rfl 3
  | relint | inhint => exact .done _ 1
  | das f => exact doubleAddToStorage_endsPlain (ea f) s
  | ddoubl => exact doubleAddToStorage_endsPlain 1#12 s
  | dca f => exact doubleClearAndAdd_endsPlain f s
  | dcs f => exact doubleClearAndSubtract_endsPlain f s
  | dcom => exact doubleClearAndSubtract_endsPlain 1#12 s
  | dxch f => exact doubleExchange_endsPlain (ea f) s
  | dtcf => exact doubleExchange_endsPlain 5#12 s
  | dtcb => exact doubleExchange_endsPlain 6#12 s
  | dv k => exact execDv_endsPlain k s
  | mp k => exact multiply_endsPlain k s
  | square => exact multiply_endsPlain _ s
  | ccs | lxch | incr | ads | ca | cs | ts | xch | ad | mask | read | write | rand | wand | ror | wor | rxor | msu
  | qxch | aug | dim | su | noop | zl | com | ovsk | tcaa | double | zq | cae | caf | msk => exact .done _ 2

/-- INDEX leaves EXT as it is and sets BLIT (45_special_control.md R363). -/
theorem indexNext_flags {k : Addr} {s t : State} (h : indexNext k s = .next t) : t.ext = s.ext ∧ t.blit = true := by
  rw [indexNext_eq] at h
  cases h
  exact ⟨rfl, rfl⟩

theorem exec_isIndex_flags {i : Instr} {s t : State} (hindex : i.isIndex = true) (h : exec i s = .next t) :
    t.ext = s.ext ∧ t.blit = true := by
  cases i with
  | index | indexExt | ndx | ndxExt => exact indexNext_flags h
  | _ => cases hindex

/-- Settles O12: EXTEND and INDEX by their own endings, every other instruction by the ending they share. -/
theorem extracodeFlag : Obligations.ExtracodeFlag := by
  intro i s t h
  by_cases hextend : i = .extend
  · subst hextend
    cases (execExtend_eq s).symm.trans h
    exact ⟨rfl, rfl⟩
  rw [if_neg hextend]
  cases hindex : i.isIndex with
  | true => exact exec_isIndex_flags hindex h
  | false => exact exec_endsPlain hextend hindex s t h

end Sys2Proof.Machine
end

section
/-! What each act of the environment changes (60_exceptions.md R551), component by component. -/

namespace Sys2Proof.Machine

/-- Every act leaves the registers, the flags and the time alone. -/
theorem applyEvent_frame (s : State) (e : EnvEvent) : ActFrame s (applyEvent s e) := by
  rw [applyEvent_eq]
  exact ⟨rfl, rfl, rfl, rfl, rfl, rfl, rfl, ⟨rfl, rfl⟩, ⟨rfl, rfl, rfl, rfl, rfl, rfl⟩, rfl, rfl, rfl⟩

/-! ### The pending requests -/

theorem handCountsEnabled_eq_false_iff (s : State) :
    handCountsEnabled s = false ↔ (s.chan.read 0o13).getLsbD 7 = false ∨ (s.chan.read 0o13).getLsbD 8 = false :=
  Bool.and_eq_false_iff

/-- A request is not made: DINC's without bit 15 of channel 0o13 (R385), the hand controller's without bits 8 and 9
(10_state.md R58). -/
theorem requestAllowed_eq_false_iff (s : State) (r : CounterReq) :
    requestAllowed s r = false ↔ (r = .dinc ∧ (s.chan.read 0o13).getLsbD 14 = false)
      ∨ (r ∈ [.pinc .rhcp, .pinc .rhcy, .pinc .rhcr, .minc .rhcp, .minc .rhcy, .minc .rhcr]
        ∧ ((s.chan.read 0o13).getLsbD 7 = false ∨ (s.chan.read 0o13).getLsbD 8 = false)) := by
  rw [← handCountsEnabled_eq_false_iff]
  cases r with
  | dinc => simp [requestAllowed, time6Enabled]
  | pinc c => cases c <;> simp [requestAllowed, PincCounter.isHand]
  | minc c => cases c <;> simp [requestAllowed, MincCounter.isHand]
  | pcdu | mcdu | shinc | shanc => simp [requestAllowed]

/-! ### The channels -/

/-- A write to a channel that is no register of the CPU, read back from any channel. -/
theorem chanRead_setChan_write (s : State) {c : ChanNo} (h1 : c ≠ 1#9) (h2 : c ≠ 2#9) (h7 : c ≠ 7#9) (w : Word)
    (d : ChanNo) :
    chanRead (s.setChan (s.chan.write c.toNat w)) d = if d = c then sext16 w else chanRead s d := by
  by_cases hd : d = c
  · subst hd
    rw [if_pos rfl, chanRead_ordinary _ h1 h2 h7, State.setChan_chan, Memory.read_write, if_pos rfl]
  · have hkey : c.toNat ≠ d.toNat := fun he => hd (BitVec.eq_of_toNat_eq he.symm)
    rw [if_neg hd]
    simp [chanRead, hkey]

/-- The channels at which the environment can present a value: the inputs but for the scaler (10_state.md R78). -/
theorem isInput_not_scaler_iff (s : State) (c : ChanNo) :
    (isInput s c = true ∧ c ∉ scalerChans) ↔ c ∈ [0o31#9, 0o32#9] ∨ c ∈ s.inputChans
      ∧ c ∉ [1#9, 2#9, 3#9, 4#9, 5#9, 6#9, 7#9, 0o13#9, 0o14#9, 0o34#9, 0o35#9] := by
  have halways : c ∈ alwaysInput ↔ c ∈ scalerChans ∨ c ∈ [0o31#9, 0o32#9] := List.mem_append
  have hnever : c ∈ [1#9, 2#9, 3#9, 4#9, 5#9, 6#9, 7#9, 0o13#9, 0o14#9, 0o34#9, 0o35#9]
      ↔ c ∈ neverInput ∨ c ∈ scalerChans :=
    (List.Perm.mem_iff (l₂ := neverInput ++ scalerChans) (by decide)).trans List.mem_append
  have hdisjoint : c ∈ [0o31#9, 0o32#9] → c ∉ scalerChans := by
    have hall : ∀ d ∈ [0o31#9, 0o32#9], d ∉ scalerChans := by decide
    exact hall c
  rw [isInput_iff, halways, hnever]
  tauto

theorem chanRead_presentChannel (s : State) (c : ChanNo) (v : Word) (d : ChanNo) :
    chanRead (presentChannel s c v) d =
      if d = c ∧ (isInput s c = true ∧ c ∉ scalerChans) then sext16 v else chanRead s d := by
  unfold presentChannel
  split
  case isTrue h =>
    obtain ⟨h1, h2, h7⟩ := isInput_ordinary h.1
    rw [chanRead_setChan_write s h1 h2 h7]
    simp only [and_iff_left h]
  case isFalse h => rw [if_neg (fun hd => h hd.2)]

/-- A count of a one's-complement word overflows at its greatest value (10_state.md R78). -/
theorem ovf_count_iff (w : Word) : ovf (add1c16 (sext16 w) plusOne) = .pos ↔ w = 0o37777#15 := by
  have hw := w.isLt
  rw [ovf_pos_iff, add1c16_toNat, sext16_toNat, ← BitVec.toNat_inj]
  simp only [plusOne, BitVec.toNat_ofNat]
  split <;> omega

theorem countUp_toNat (w : Word) :
    (countUp w).toNat = if w.toNat = 0o37777 then 0 else if w.toNat = 0o77777 then 1 else w.toNat + 1 := by
  have hw := w.isLt
  unfold countUp
  simp only [← BitVec.toNat_inj, BitVec.toNat_ofNat]
  split
  · rfl
  · split
    · rfl
    · rw [BitVec.toNat_add, BitVec.toNat_ofNat]
      omega

theorem ovc_count (w : Word) : ovc (add1c16 (sext16 w) plusOne) = countUp w := by
  have hw := w.isLt
  apply BitVec.eq_of_toNat_eq
  rw [ovc_toNat, add1c16_toNat, sext16_toNat, countUp_toNat]
  simp only [plusOne, BitVec.toNat_ofNat]
  split_ifs <;> omega

/-- The scaler's channels count as `countUp` does, each a write to one channel (10_state.md R78). -/
theorem advanceScaler_countUp (s : State) :
    advanceScaler s =
      let t := s.setChan (s.chan.write (4#9 : ChanNo).toNat (countUp (s.chan.read 4)))
      if s.chan.read 4 = 0o37777#15 then t.setChan (t.chan.write (3#9 : ChanNo).toNat (countUp (s.chan.read 3)))
      else t := by
  have hhigh (w : Word) : (s.chan.write 4 w).read 3 = s.chan.read 3 := Memory.read_write s.chan 4 w 3
  simp only [advanceScaler, ovf_count_iff, ovc_count, State.setChan_chan, hhigh]
  rfl

/-- LOSCALAR counts, and HISCALAR at its overflow. -/
theorem chanRead_advanceScaler (s : State) (d : ChanNo) :
    chanRead (advanceScaler s) d =
      if d = 4#9 then sext16 (countUp (s.chan.read 4))
      else if d = 3#9 ∧ s.chan.read 4 = 0o37777#15 then sext16 (countUp (s.chan.read 3))
      else chanRead s d := by
  rw [advanceScaler_countUp]
  dsimp only
  split
  case isTrue hmax =>
    rw [chanRead_setChan_write _ (by decide) (by decide) (by decide),
      chanRead_setChan_write _ (by decide) (by decide) (by decide)]
    by_cases h4 : d = 4#9
    · subst h4
      rfl
    · simp only [h4, hmax, and_true, if_false]
  case isFalse hmax =>
    rw [chanRead_setChan_write _ (by decide) (by decide) (by decide)]
    simp only [hmax, and_false, if_false]

/-! ### Erasable memory -/

/-- Only a command counter is drained, while channel 0o14 drives it (46_unprogrammed_sequences.md R394). -/
theorem eraseRead_applyEvent_drain (s : State) (c : CommandCounter) (bank : EBank) (off : EOff) :
    eraseRead (applyEvent s (.drain c)) bank off =
      if bank = 0#3 ∧ off = c.off ∧ driveEnabled s c = true then 0#15 else eraseRead s bank off := by
  simp only [applyEvent]
  split
  case isTrue h =>
    rw [setCounter, eraseRead_eraseWrite]
    simp only [h, and_true, eq_comm]
  case isFalse h => rw [if_neg (fun hdrained => h hdrained.2.2)]

end Sys2Proof.Machine
end

section
/-! The four things a step does, each from the conditions under which it does it (40_common_arithmetic.md R205), and the
two statements about the order (O4) and about the quiet case (O5). -/

namespace Sys2Proof.Machine

variable {s : State}

/-! ### The boundary -/

theorem nextBoundary_of_env_nil (henv : s.env = []) : nextBoundary s = Boundary.quiet := by
  simp [nextBoundary, henv]

theorem atBoundary_of_env_nil (henv : s.env = []) : atBoundary s = s := by
  unfold atBoundary
  rw [nextBoundary_of_env_nil henv, henv]
  show s.setEnv [] = s
  rw [← henv]
  rfl

theorem nextBoundary_of_env_cons {b : Boundary} {rest : List Boundary} (henv : s.env = b :: rest) :
    nextBoundary s = b := by
  simp [nextBoundary, henv]

theorem atBoundary_of_env_cons {b : Boundary} {rest : List Boundary} (henv : s.env = b :: rest) :
    atBoundary s = b.events.foldl applyEvent { s with env := rest } := by
  unfold atBoundary
  rw [nextBoundary_of_env_cons henv, henv]
  rfl

/-! ### One step -/

theorem step_eq_goj (hgoj : (nextBoundary s).goj = true) : step s = .next (goj (atBoundary s)) := by
  simp [step, stepCycle, hgoj]

/-- While requests are pending, one of them is served (46_unprogrammed_sequences.md R380). -/
theorem exists_chooseRequest {pending : List CounterReq} (hpending : pending ≠ []) (serve : Nat) :
    ∃ r rest, chooseRequest pending serve = some (r, rest) := by
  cases h : chooseRequest pending serve with
  | some p => exact ⟨p.1, p.2, rfl⟩
  | none => exact absurd (chooseRequest_none h) hpending

theorem step_eq_doSequence (hgoj : (nextBoundary s).goj = false) (hpending : (atBoundary s).pending ≠ []) :
    ∃ r rest, (atBoundary s).pending.Perm (r :: rest)
      ∧ step s = .next (doSequence ((atBoundary s).setPending rest) r) := by
  obtain ⟨r, rest, hchoose⟩ := exists_chooseRequest hpending (nextBoundary s).serve
  exact ⟨r, rest, chooseRequest_some hchoose, by simp [step, stepCycle, hgoj, hchoose]⟩

theorem step_eq_interruptOrExecute (hgoj : (nextBoundary s).goj = false) (hpending : (atBoundary s).pending = []) :
    step s = interruptOrExecute (atBoundary s) := by
  simp [step, stepCycle, hgoj, hpending, chooseRequest]

theorem step_eq_vectorTo {i : Interrupt} (htakes : TakesInterrupt s i) :
    step s = .next (vectorTo (atBoundary s) i) := by
  obtain ⟨hgoj, hpending, htake⟩ := htakes
  rw [step_eq_interruptOrExecute hgoj hpending, interruptOrExecute, htake]

theorem step_eq_exec (hruns : RunsInstruction s) : step s = exec (instrAt s) (atBoundary s) := by
  obtain ⟨hgoj, hpending, hnone⟩ := hruns
  rw [step_eq_interruptOrExecute hgoj hpending, interruptOrExecute, hnone]
  rfl

/-- Settles O4: each component of what an act changes by its own lemma, each thing a step does from its conditions. -/
theorem stepOrder : Obligations.StepOrder := by
  refine ⟨fun s e => ⟨applyEvent_frame s e, ?pending, ?ruptReq, fun d => ?channels, fun bank off => ?erasable⟩,
    fun s => ⟨fun henv => ?quiet, fun b rest henv => ⟨nextBoundary_of_env_cons henv, atBoundary_of_env_cons henv⟩,
      step_eq_goj, fun hgoj hpending => ?sequence,
      fun hgoj hpending i htake => step_eq_vectorTo ⟨hgoj, hpending, htake⟩,
      fun hgoj hpending hnone => step_eq_exec ⟨hgoj, hpending, hnone⟩⟩⟩
  case pending =>
    rw [applyEvent_eq]
    cases e with
    | count r =>
      simp only [← requestAllowed_eq_false_iff]
      cases requestAllowed s r <;> rfl
    | _ => rfl
  case ruptReq =>
    rw [applyEvent_eq]
    cases e <;> rfl
  case channels =>
    cases e with
    | channel c v => exact (chanRead_presentChannel s c v d).trans (by simp only [isInput_not_scaler_iff])
    | scaler => exact chanRead_advanceScaler s d
    | _ => rw [applyEvent_eq]; rfl
  case erasable =>
    cases e with
    | drain c =>
      rw [eraseRead_applyEvent_drain]
      cases c <;> rfl
    | _ => rw [applyEvent_eq]; rfl
  case quiet =>
    rw [nextBoundary_of_env_nil henv]
    exact ⟨atBoundary_of_env_nil henv, rfl⟩
  case sequence =>
    obtain ⟨r, rest, hperm, hstep⟩ := step_eq_doSequence hgoj hpending
    exact ⟨r, rest, hperm.mem_iff.mpr (List.mem_cons_self ..), hperm, hstep⟩

/-! ### The quiet case -/

theorem runsInstruction_of_quiet (henv : s.env = []) (hpending : s.pending = []) (hnone : interruptToTake s = none) :
    RunsInstruction s := by
  unfold RunsInstruction
  rw [nextBoundary_of_env_nil henv, atBoundary_of_env_nil henv]
  exact ⟨rfl, hpending, hnone⟩

/-- The quiet step is ExecuteB (40_common_arithmetic.md R206). -/
theorem step_of_quiet (henv : s.env = []) (hpending : s.pending = []) (hnone : interruptToTake s = none) :
    step s = exec (decode s.ext s.blit s.b) s := by
  rw [step_eq_exec (runsInstruction_of_quiet henv hpending hnone), instrAt, atBoundary_of_env_nil henv]

theorem interruptToTake_of_clear (hclear : s.ruptReq = Latches.clear) : interruptToTake s = none := by
  have hget (i : Interrupt) : Latches.clear.get i = false := by cases i <;> rfl
  simp [interruptToTake, hclear, hget]

/-- A row's instruction is what the decoder reads with BLIT clear (30_encoding.md R152). -/
theorem decode_of_decodeTableWord {w : Nat} {i : Instr} (h : decodeTableWord 16 w = some i) :
    decode (w.testBit 15) false (BitVec.ofNat 15 w) = i := by
  unfold decodeTableWord decodeKey at h
  split_ifs at h
  all_goals simpa using h

/-- Settles O5: where nothing is pending, and the host's placement is such a state. -/
theorem stepRunsDecoded : Obligations.StepRunsDecoded := by
  refine ⟨fun s henv hpending hnone => ⟨?_, step_of_quiet henv hpending hnone⟩, fun s w i hrow => ?_⟩
  · obtain ⟨_, hnames, _⟩ := decode_names s.ext s.blit s.b
    exact hnames.wellFormed
  · have hdecode : decode (w.testBit 15) false (BitVec.ofNat 15 w) = i := decode_of_decodeTableWord hrow
    have hstep := step_of_quiet (s := s.withFetchWord 16 w) rfl rfl (interruptToTake_of_clear rfl)
    exact hdecode ▸ hstep

end Sys2Proof.Machine
end

section
/-! The control transfers that keep to the registers (41_control_transfer.md R230 to R237): what each of their shared
meanings does, in the terms of the statements, and the statements about TC, TCF and the branches (O26 to O29). -/

namespace Sys2Proof.Machine

variable {s t : State}

/-! ### Frames -/

theorem sameErasable_of_eq (h : t.erasable = s.erasable) : SameErasable s t := fun bank off => by
  rw [eraseRead, h, eraseRead]

theorem registersOnly_of (hbanks : SameBanks s t) (herasable : t.erasable = s.erasable) (houtside : SameOutside s t) :
    RegistersOnly s t :=
  ⟨hbanks, sameErasable_of_eq herasable, houtside⟩

/-- A jump to the address in Z that changes nothing a read depends on is what going on would have been (R235). -/
theorem HoldsNext.nextAt (hnext : HoldsNext t (fetchWord s s.z) s.z) (ha : t.a = s.a) (hl : t.l = s.l) (hq : t.q = s.q)
    (hbanks : SameBanks s t) (herasable : t.erasable = s.erasable) (houtside : SameOutside s t) : NextAt t s.z := by
  obtain ⟨hb, hz, hblit⟩ := hnext
  obtain ⟨hebank, hfbank⟩ := hbanks
  obtain ⟨_, ⟨_, _, hrope, _⟩, ⟨hsbank, _⟩⟩ := houtside
  exact nextAt_of rfl hb hz hblit ha hl hq hebank hfbank hsbank herasable hrope

/-! ### The shared meanings -/

/-- A transfer that sets the return address (R230): B is what K held before Q was written. -/
theorem transferControl_spec (k : Addr) (s : State) (n : Nat) :
    ∃ t, transferControl k s n = .next t ∧ HoldsNext t (fetchWord s k) k ∧ t.q = zext16 s.z ∧ t.a = s.a ∧ t.l = s.l
      ∧ t.ext = false ∧ RegistersOnly s t ∧ Took s t n := by
  obtain ⟨t, hdone, hnext, hext, htook, ha, hl, hq, hbanks, herasable, houtside⟩ :=
    doneB_spec (s.setQ (zext16 s.z)) (fetchWord s k) k n
  exact ⟨t, hdone, hnext, hq, ha, hl, hext, registersOnly_of hbanks herasable houtside, htook⟩

/-- A transfer that sets no return address (R234). -/
theorem transferNoReturn_spec (k : Addr) (s : State) :
    ∃ t, transferNoReturn k s = .next t ∧ HoldsNext t (fetchWord s k) k ∧ t.a = s.a ∧ t.l = s.l ∧ t.q = s.q
      ∧ t.ext = false ∧ RegistersOnly s t ∧ Took s t 1 ∧ (k = s.z → NextAt t s.z) := by
  obtain ⟨t, hdone, hnext, hext, htook, ha, hl, hq, hbanks, herasable, houtside⟩ := doneB_spec s (fetchWord s k) k 1
  refine ⟨t, hdone, hnext, ha, hl, hq, hext, registersOnly_of hbanks herasable houtside, htook, ?_⟩
  rintro rfl
  exact hnext.nextAt ha hl hq hbanks herasable houtside

/-- An instruction that only goes on to the next one. -/
theorem done_registersOnly (s : State) (n : Nat) :
    ∃ t, done s n = .next t ∧ t.a = s.a ∧ t.l = s.l ∧ t.q = s.q ∧ RegistersOnly s t ∧ EndsAt s t s.z n := by
  obtain ⟨t, hdone, hends, ha, hl, hq, hbanks, herasable, houtside⟩ := done_spec s n
  exact ⟨t, hdone, ha, hl, hq, registersOnly_of hbanks herasable houtside, hends⟩

/-- A branch, whose test `p` says what the rule's condition `taken` says (R236, R237). -/
theorem branch_spec (k : Addr) (s : State) {p taken : Prop} [Decidable p] (hp : p ↔ taken) :
    ∃ t, (if p then transferNoReturn k s else done s 2) = .next t ∧ t.a = s.a ∧ t.l = s.l ∧ t.q = s.q ∧ t.ext = false
      ∧ RegistersOnly s t ∧ (taken → HoldsNext t (fetchWord s k) k ∧ Took s t 1)
      ∧ (¬taken → NextAt t s.z ∧ Took s t 2) := by
  by_cases h : p
  · obtain ⟨t, htransfer, hnext, ha, hl, hq, hext, hframe, htook, _⟩ := transferNoReturn_spec k s
    exact ⟨t, (if_pos h).trans htransfer, ha, hl, hq, hext, hframe, fun _ => ⟨hnext, htook⟩,
      fun hnot => absurd (hp.mp h) hnot⟩
  · obtain ⟨t, hdone, ha, hl, hq, hframe, hnext, hext, htook⟩ := done_registersOnly s 2
    exact ⟨t, (if_neg h).trans hdone, ha, hl, hq, hext, hframe, fun htaken => absurd (hp.mpr htaken) h,
      fun _ => ⟨hnext, htook⟩⟩

/-- NOOP of erasable memory is CA A, which puts A into A and re-writes nothing (R235). -/
theorem execNoop_eq (s : State) : execNoop s = done s 2 := by
  have hread : rdOp s 0#12 = s.a := rdOp_eq s 0#12
  have hset : s.setA s.a = s := rfl
  have hwrite : reWrite s 0#12 = s := reWrite_eq s 0#12
  rw [execNoop, clearAndAdd, hread, hset, hwrite]

/-! ### The instructions -/

/-- An instruction with a 12-bit address and code 0 has its address for a word (30_encoding.md R154). -/
theorem hasWord12_zero {i : Instr} {k : Addr} (hext : extOf i = false) (hword : encode i = word12 0 k) :
    HasWord i false (operand12 k) :=
  BitVec.zero_add (operand12 k) ▸ hasWord12 hext hword rfl

/-- Settles O27: TC of a register's address, and the word there is the register read as 15 bits (20_memory.md R110). -/
theorem transferToRegister : Obligations.TransferToRegister := by
  intro s post
  have transfer (r : CpuReg) :
      ∃ t, transferControl r.addr s 1 = .next t ∧ HoldsNext t (regRead15 s r) r.addr ∧ post t := by
    rw [← memRead_regAddr]
    exact transferControl_spec r.addr s 1
  exact ⟨⟨rfl, rfl⟩, ⟨rfl, rfl⟩, ⟨rfl, rfl⟩, transfer .a, transfer .l, transfer .q⟩

/-- Settles O28: TCF is the transfer that sets no return address; NOOP of erasable memory only goes on. -/
theorem transferToFixed : Obligations.TransferToFixed := by
  intro k s
  refine ⟨hasWord12 rfl rfl rfl, ⟨rfl, rfl⟩, transferNoReturn_spec k s, ?_⟩
  rw [exec, execNoop_eq]
  exact done_registersOnly s 2

/-- Settles O29: both are branches, on all 16 bits of A (R236) and on the whole of A or its bit 16 (R237). -/
theorem branchToFixed : Obligations.BranchToFixed := by
  intro k s post
  have bzfTaken : isZero16 s.a = true ↔ s.a = 0o000000#16 ∨ s.a = 0o177777#16 := isZero16_iff s.a
  have bzmfTaken : s.a = 0o000000#16 ∨ s.a.getLsbD 15 = true ↔ s.a = 0o000000#16 ∨ 0o100000 ≤ s.a.toNat :=
    or_congr_right (bit15_iff s.a)
  exact ⟨hasWord12 rfl rfl rfl, hasWord12 rfl rfl rfl, branch_spec k s bzfTaken, branch_spec k s bzmfTaken⟩

end Sys2Proof.Machine

namespace Sys2Proof

/-- Settles O26: TC and TCR are the transfer that sets the return address, in 1 MCT. It stands outside `Machine`, where the
name is that of the model's transfer. -/
theorem transferControl : Obligations.TransferControl := fun k s =>
  ⟨Machine.hasWord12_zero rfl rfl, Machine.hasWord12_zero rfl rfl, Machine.transferControl_spec k s 1,
    Machine.transferControl_spec k s 1⟩

end Sys2Proof
end

section
/-! CCS (41_control_transfer.md R238): the diminished absolute value and the skip as arithmetic, and the statement (O30). -/

namespace Sys2Proof.Machine

theorem bit15_iff_not_lt (v : Acc) : v.getLsbD 15 = true ↔ ¬v.toNat < 0o100000 := (bit15_iff v).trans not_lt.symm

/-- The absolute value of a 16-bit value in one's complement, as CCS takes it. -/
theorem toNat_absolute (v : Acc) :
    (if v.getLsbD 15 then ~~~v else v).toNat = if v.toNat < 0o100000 then v.toNat else 0o177777 - v.toNat := by
  simp only [bit15_iff_not_lt, ite_not]
  split
  · rfl
  · exact BitVec.toNat_not

/-- The diminished absolute value: one less than the absolute value where that is past 1, else +0. -/
theorem dabs_toNat (v : Acc) :
    (dabs v).toNat =
      let m := if v.toNat < 0o100000 then v.toNat else 0o177777 - v.toNat
      if 1 < m then m - 1 else 0 := by
  dsimp only
  rw [← toNat_absolute, dabs]
  generalize (if v.getLsbD 15 then ~~~v else v) = m
  by_cases h : 1 < m.toNat
  · have hone : 1#16 ≤ m := BitVec.le_def.mpr h.le
    rw [if_pos (Nat.succ_le_of_lt h), if_pos h, BitVec.toNat_sub_of_le hone]
    rfl
  · rw [if_neg (mt Nat.lt_of_succ_le h), if_neg h]
    rfl

/-- The skip goes by the sign of the 16-bit value, so overflow counts as its own sign, and each zero has its place. -/
theorem ccsSkip_eq (v : Acc) :
    ccsSkip v = if v = 0o000000#16 then 1#12 else if v = 0o177777#16 then 3#12
      else if v.toNat < 0o100000 then 0#12 else 2#12 := by
  have ne_of_overflow {c : Acc} (hc : ovf c = .none) (hv : ovf v ≠ .none) : v ≠ c := fun h => hv (h ▸ hc)
  unfold ccsSkip
  cases h : ovf v with
  | pos =>
    have hv : ovf v ≠ .none := by simp [h]
    dsimp only
    rw [if_neg (ne_of_overflow rfl hv), if_neg (ne_of_overflow rfl hv), if_pos ((ovf_pos_iff v).mp h).2]
  | neg =>
    have hv : ovf v ≠ .none := by simp [h]
    dsimp only
    rw [if_neg (ne_of_overflow rfl hv), if_neg (ne_of_overflow rfl hv), if_neg (not_lt.mpr ((ovf_neg_iff v).mp h).1)]
  | none => simp only [bit15_iff_not_lt, ite_not]

/-- The state from which CCS goes on, with the re-written cell in `reWrite`. -/
def ccsEnd (k : EAddr) (s : State) : State :=
  { s with
    a := dabs (rdOp s (ea k))
    z := s.z + ccsSkip (rdOp s (ea k))
    erasable := (reWrite s (ea k)).erasable }

/-- Everything CCS can do. -/
theorem execCcs_eq (k : EAddr) (s : State) : execCcs k s = done (ccsEnd k s) 2 := by
  unfold execCcs ccsEnd
  rw [reWrite_eq]
  rfl

/-- Settles O30: K is read unedited, then re-written, and the next word is fetched past the skip. -/
theorem countCompareSkip : Obligations.CountCompareSkip := by
  intro k s v m
  rw [← ccsSkip_eq]
  obtain ⟨t, hdone, hends, ha, hl, hq, hbanks, herasable, houtside⟩ := done_spec (ccsEnd k s) 2
  exact ⟨hasWord10 rfl rfl rfl, t, (execCcs_eq k s).trans hdone, (congrArg BitVec.toNat ha).trans (dabs_toNat v), hl, hq,
    hbanks, houtside, reedited_reWrite s t (ea k) herasable, hends⟩

end Sys2Proof.Machine
end

section
/-! The loads (42_load_store_exchange.md R260 to R265): what a load of one word and of a pair does, in the terms of the
statements, and the statements about CA, CS, COM, DCOM, DCA and DCS (O31 to O35). -/

namespace Sys2Proof.Machine

variable {s t u : State}

/-! ### Re-writes of one operand and of two -/

/-- At a register a re-write changes no cell. -/
theorem Reedited.sameErasable {r : CpuReg} (h : Reedited s (.reg r) t) : SameErasable s t := fun bank off =>
  (h bank off).trans (if_neg nofun)

theorem SameErasable.reedited (h : SameErasable s t) (r : CpuReg) : Reedited s (.reg r) t := fun bank off =>
  (h bank off).trans (if_neg nofun).symm

/-- Re-writes of two different operands. -/
theorem Reedited.pair {lo hi : Loc} (hlo : Reedited s lo u) (hhi : Reedited u hi t)
    (hne : ∀ bank off, hi = .eras bank off → lo ≠ .eras bank off) (bank : EBank) (off : EOff) :
    eraseRead t bank off = if lo = .eras bank off ∨ hi = .eras bank off then edit bank off (eraseRead s bank off)
      else eraseRead s bank off := by
  rw [hhi, hlo]
  by_cases h : hi = .eras bank off
  · rw [if_pos h, if_neg (hne bank off h), if_pos (.inr h)]
  · simp only [h, if_false, or_false]

theorem eraseLoc_eras_off {b bank : EBank} {o off : EOff} (h : eraseLoc b o = .eras bank off) : off = o := by
  unfold eraseLoc at h
  split at h
  · split at h
    · cases h
    · exact (Loc.eras.inj h).2.symm
  · exact (Loc.eras.inj h).2.symm

/-- The offset of a cell is in the low 8 bits of its address, in the window too (20_memory.md R103). -/
theorem resolve_eras_off {k : Addr} {bank : EBank} {off : EOff} (h : resolve s k = .eras bank off) :
    off = eraseOff k := by
  unfold resolve at h
  split at h
  · exact eraseLoc_eras_off h
  · split at h
    · exact absurd h (fixedLoc_ne_eras _ _ _ _)
    · split at h <;> cases h

theorem eraseOff_pairHigh_ne (f : Addr) : eraseOff (pairHigh f) ≠ eraseOff f := by
  intro h
  have hmod := congrArg BitVec.toNat h
  rw [eraseOff_toNat, eraseOff_toNat, pairHigh, BitVec.toNat_sub, BitVec.toNat_ofNat] at hmod
  have := f.isLt
  omega

/-- The two words of a pair are not the same cell, though each is resolved by itself (20_memory.md R114). -/
theorem resolve_pair_ne {f : Addr} {bank : EBank} {off : EOff} (hhi : resolve s (pairHigh f) = .eras bank off) :
    resolve s f ≠ .eras bank off := fun hlo =>
  eraseOff_pairHigh_ne f ((resolve_eras_off hhi).symm.trans (resolve_eras_off hlo))

/-! ### The two halves of a load -/

/-- Everything the load of L can do. -/
theorem loadLow_eq (g : Acc → Acc) (k : Addr) (s : State) :
    loadLow g k s = { s with l := ovc (g (rdOp s k)), erasable := (reWrite s k).erasable } := by
  rw [loadLow, reWrite_eq, reWrite_eq s]
  rfl

/-- Everything the load of A can do. -/
theorem loadHigh_eq (g : Acc → Acc) (k : Addr) (s : State) :
    loadHigh g k s = { s with a := g (rdOp s k), erasable := (reWrite s k).erasable } := by
  rw [loadHigh, reWrite_eq, reWrite_eq s]
  rfl

theorem resolve_loadLow (g : Acc → Acc) (f k : Addr) (s : State) : resolve (loadLow g f s) k = resolve s k := by
  rw [loadLow_eq]
  rfl

theorem reedited_loadLow (g : Acc → Acc) (k : Addr) (s : State) : Reedited s (resolve s k) (loadLow g k s) :=
  reedited_reWrite s _ k (by rw [loadLow_eq])

/-- After the load of the low word the high word still reads as before, unless it is the L just loaded (log 14). -/
theorem rdOp_loadLow_pairHigh (g : Acc → Acc) (f : Addr) (s : State) :
    rdOp (loadLow g f s) (pairHigh f) =
      if resolve s (pairHigh f) = .reg .l then sext16 (ovc (g (rdOp s f))) else rdOp s (pairHigh f) := by
  have hcell (bank off) (h : resolve s (pairHigh f) = .eras bank off) :
      eraseRead (loadLow g f s) bank off = eraseRead s bank off :=
    (reedited_loadLow g f s bank off).trans (if_neg (resolve_pair_ne h))
  rw [rdOp_eq, rdOp_eq s (pairHigh f), resolve_loadLow]
  cases hloc : resolve s (pairHigh f) with
  | reg r => cases r <;> rw [loadLow_eq] <;> rfl
  | eras bank off => exact congrArg sext16 (hcell bank off hloc)
  | fixed bank off => rw [loadLow_eq]; rfl
  | noRope => rfl

/-! ### The loads, whatever is done to the operand's value -/

/-- The load of one word into A. -/
theorem done_loadHigh (g : Acc → Acc) (k : Addr) (s : State) (n : Nat) :
    ∃ t, done (loadHigh g k s) n = .next t ∧ t.a = g (rdOp s k) ∧ t.l = s.l ∧ t.q = s.q ∧ SameBanks s t
      ∧ SameOutside s t ∧ Reedited s (resolve s k) t ∧ EndsAt s t s.z n := by
  obtain ⟨t, hdone, hends, ha, hl, hq, hbanks, herasable, houtside⟩ :=
    done_spec { s with a := g (rdOp s k), erasable := (reWrite s k).erasable } n
  exact ⟨t, loadHigh_eq g k s ▸ hdone, ha, hl, hq, hbanks, houtside, reedited_reWrite s t k herasable, hends⟩

/-- The load of a pair into A and L: what the pair (L, Q) has of its own, and the two halves in turn for any other. -/
def loadPair (g : Acc → Acc) (f : Addr) (s : State) : State :=
  if f = 2#12 then (s.setA (g s.q)).setL (ovc (g s.q)) else loadHigh g (pairHigh f) (loadLow g (pairLow f) s)

/-- The load of a pair: L from the low word, A from the high word as the load of L leaves it. -/
theorem done_loadPair (g : Acc → Acc) (f : Addr) (s : State) (n : Nat) :
    ∃ t, done (loadPair g f s) n = .next t ∧ t.l = ovc (g (rdOp s f))
      ∧ t.a = (if f = 2#12 then g s.q else if resolve s (f - 1#12) = .reg .l then g (sext16 (ovc (g (rdOp s f))))
          else g (rdOp s (f - 1#12)))
      ∧ t.q = s.q ∧ SameBanks s t ∧ SameOutside s t ∧ EndsAt s t s.z n
      ∧ ∀ bank off, eraseRead t bank off =
          if resolve s f = .eras bank off ∨ resolve s (f - 1#12) = .eras bank off
          then edit bank off (eraseRead s bank off)
          else eraseRead s bank off := by
  unfold loadPair
  by_cases h2 : f = 2#12
  · subst h2
    obtain ⟨t, hdone, hends, ha, hl, hq, hbanks, herasable, houtside⟩ :=
      done_spec ((s.setA (g s.q)).setL (ovc (g s.q))) n
    have hcells := sameErasable_of_eq (s := s) herasable
    exact ⟨t, hdone, hl, ha, hq, hbanks, houtside, hends,
      Reedited.pair (SameErasable.reedited (fun _ _ => rfl) .q) (hcells.reedited .l) nofun⟩
  · simp only [if_neg h2]
    obtain ⟨t, hdone, ha, hl, hq, hbanks, houtside, hcells, hends⟩ :=
      done_loadHigh g (pairHigh f) (loadLow g f s) n
    rw [rdOp_loadLow_pairHigh, apply_ite g] at ha
    rw [resolve_loadLow] at hcells
    have hpair := Reedited.pair (reedited_loadLow g f s) hcells fun _ _ h => resolve_pair_ne h
    rw [loadLow_eq] at hl hq hbanks houtside hends
    exact ⟨t, hdone, hl, ha, hq, hbanks, houtside, hends, hpair⟩

theorem doubleClearAndAdd_eq {f : Addr} (hf : f ≠ 0#12) (s : State) :
    doubleClearAndAdd f s = done (loadPair (fun v => v) f s) 3 := by
  rw [doubleClearAndAdd, if_neg hf, loadPair, apply_ite (done · 3)]

theorem doubleClearAndSubtract_eq {f : Addr} (hf : f ≠ 0#12) (s : State) :
    doubleClearAndSubtract f s = done (loadPair (fun v => ~~~v) f s) 3 := by
  rw [doubleClearAndSubtract, if_neg hf, loadPair, apply_ite (done · 3)]

/-- Sign extension goes along with the complement, so L takes the complement of all its 15 bits. -/
theorem ovc_not_sext16 (w : Word) : ovc (~~~(sext16 w)) = ~~~w := by
  apply BitVec.eq_of_toNat_eq
  rw [ovc_toNat, BitVec.toNat_not, sext16_toNat, BitVec.toNat_not]
  have := w.isLt
  omega

end Sys2Proof.Machine

namespace Sys2Proof

open Machine

/-- Settles O31: one load under three names. -/
theorem clearAndAdd : Obligations.ClearAndAdd := by
  intro k s post
  have load : ∃ t, done (loadHigh (fun v => v) k s) 2 = .next t ∧ post t := done_loadHigh (fun v => v) k s 2
  exact ⟨hasWord12 rfl rfl rfl, hasWord12 rfl rfl rfl, hasWord12 rfl rfl rfl, load, load, load⟩

/-- Settles O32: the load of the complement. -/
theorem clearAndSubtract : Obligations.ClearAndSubtract := fun k s =>
  ⟨hasWord12 rfl rfl rfl, done_loadHigh (fun v => ~~~v) k s 2⟩

/-- Settles O34: the load of a pair as it is. -/
theorem doubleClearAndAdd : Obligations.DoubleClearAndAdd := by
  intro f s hf
  obtain ⟨t, hdone, hrest⟩ := done_loadPair (fun v => v) f s 3
  exact ⟨hasWord12 rfl rfl rfl, t, (doubleClearAndAdd_eq hf s).trans hdone, hrest⟩

/-- Settles O35: the load of a pair complemented. -/
theorem doubleClearAndSubtract : Obligations.DoubleClearAndSubtract := by
  intro f s hf
  obtain ⟨t, hdone, hrest⟩ := done_loadPair (fun v => ~~~v) f s 3
  exact ⟨hasWord12 rfl rfl rfl, t, (doubleClearAndSubtract_eq hf s).trans hdone, hrest⟩

/-- Settles O33: COM is CS of A and DCOM is DCS of the pair (A, L), registers whose re-writes change nothing. -/
theorem complements : Obligations.Complements := by
  intro s
  refine ⟨⟨rfl, rfl⟩, ⟨rfl, rfl⟩, ?com, ?dcom⟩
  case com =>
    obtain ⟨-, t, hexec, ha, hl, hq, hbanks, houtside, hcells, hends⟩ := clearAndSubtract 0#12 s
    have hreg : Reedited s (.reg .a) t := hcells
    exact ⟨t, hexec, ha, hl, hq, ⟨hbanks, hreg.sameErasable, houtside⟩, hends⟩
  case dcom =>
    obtain ⟨-, t, hexec, hl, ha, hq, hbanks, houtside, hends, hcells⟩ := doubleClearAndSubtract 1#12 s (by decide)
    have hkept : SameErasable s t := fun bank off => (hcells bank off).trans (if_neg (by rintro (h | h) <;> cases h))
    exact ⟨t, hexec, ha, hl.trans (ovc_not_sext16 s.l), hq, ⟨hbanks, hkept, houtside⟩, hends⟩

end Sys2Proof
end

section
/-! The stores and exchanges (42_load_store_exchange.md R266 to R280): what a store leaves, carried from the state
before an instruction to its end, and the statements about TS, the exchanges and their special cases (O36 to O43). -/

namespace Sys2Proof.Machine

variable {s t u : State} {loc : Loc} {v : Acc} {w : Word}

/-! ### What a store leaves -/

theorem StoredWord.sameErasable {r : CpuReg} (h : StoredWord s (.reg r) w t) : SameErasable s t := fun bank off =>
  (h bank off).trans (if_neg nofun)

protected theorem SameOutside.trans (h : SameOutside s u) (h' : SameOutside u t) : SameOutside s t := by
  obtain ⟨⟨hruptReq, hpending⟩, ⟨hinh, hisr, hrope, hinputs, henv, hfree⟩, hsbank, hchan, hobserved⟩ := h
  obtain ⟨⟨hruptReq', hpending'⟩, ⟨hinh', hisr', hrope', hinputs', henv', hfree'⟩, hsbank', hchan', hobserved'⟩ := h'
  exact ⟨⟨hruptReq'.trans hruptReq, hpending'.trans hpending⟩,
    ⟨hinh'.trans hinh, hisr'.trans hisr, hrope'.trans hrope, hinputs'.trans hinputs, henv'.trans henv,
      hfree'.trans hfree⟩,
    hsbank'.trans hsbank, hchan'.trans hchan, hobserved'.trans hobserved⟩

/-- Z, the banks and the cells of `t` are as a store of `v` to `loc` leaves those of `s`; A, L and Q are left open, for
an exchange writes one of them afterwards. -/
structure Stored (s : State) (loc : Loc) (v : Acc) (t : State) : Prop where
  banks : StoredBanks s loc v t
  z : t.z = storedZ s.z loc v
  outside : SameOutside s t
  mct : t.mct = s.mct

theorem wrOp_stored (s : State) (k : Addr) (v : Acc) : Stored s (resolve s k) v (wrOp s k v) := by
  rw [wrOp_eq]
  exact ⟨⟨rfl, rfl, eraseRead_stored s _ _ _ rfl⟩, rfl,
    ⟨⟨rfl, rfl⟩, ⟨rfl, rfl, rfl, rfl, rfl, rfl⟩, rfl, rfl, rfl⟩, rfl⟩

@[simp] theorem wrOp_a (s : State) (k : Addr) (v : Acc) : (wrOp s k v).a = storedA s.a (resolve s k) v := by
  rw [wrOp_eq]

@[simp] theorem wrOp_l (s : State) (k : Addr) (v : Acc) : (wrOp s k v).l = storedL s.l (resolve s k) v := by
  rw [wrOp_eq]

@[simp] theorem wrOp_q (s : State) (k : Addr) (v : Acc) : (wrOp s k v).q = storedQ s.q (resolve s k) v := by
  rw [wrOp_eq]

namespace Stored

protected theorem setA (h : Stored s loc v u) (w : Acc) : Stored s loc v (u.setA w) := ⟨h.banks, h.z, h.outside, h.mct⟩

protected theorem setL (h : Stored s loc v u) (w : Word) : Stored s loc v (u.setL w) := ⟨h.banks, h.z, h.outside, h.mct⟩

protected theorem setQ (h : Stored s loc v u) (w : Acc) : Stored s loc v (u.setQ w) := ⟨h.banks, h.z, h.outside, h.mct⟩

/-- An instruction that ends after a store fetches from the Z that the store left. -/
protected theorem done (h : Stored s loc v u) (n : Nat) :
    ∃ t, done u n = .next t ∧ t.a = u.a ∧ t.l = u.l ∧ t.q = u.q ∧ StoredBanks s loc v t ∧ SameOutside s t
      ∧ EndsAt s t (storedZ s.z loc v) n := by
  obtain ⟨⟨hebank, hfbank, hcells⟩, hz, houtside, hmct⟩ := h
  obtain ⟨t, hdone, ⟨hnext, hext, htook⟩, ha, hl, hq, ⟨hebank', hfbank'⟩, herasable, houtside'⟩ := done_spec u n
  have hsame : SameErasable u t := sameErasable_of_eq herasable
  refine ⟨t, hdone, ha, hl, hq, ⟨hebank'.trans hebank, hfbank'.trans hfbank, fun bank off => ?_⟩,
    houtside.trans houtside', hz ▸ hnext, hext, ?_⟩
  · exact (hsame bank off).trans (hcells bank off)
  · rw [Took, htook, hmct]

end Stored

/-- A store to a register that holds no bank keeps to the registers. -/
theorem registersOnly_of_storedBanks {r : CpuReg} (h : StoredBanks s (.reg r) v t) (houtside : SameOutside s t)
    (hr : r ≠ .eb ∧ r ≠ .fb ∧ r ≠ .bb) : RegistersOnly s t := by
  obtain ⟨hebank, hfbank, hcells⟩ := h
  obtain ⟨heb, hfb, hbb⟩ := hr
  refine ⟨⟨?_, ?_⟩, hcells.sameErasable, houtside⟩
  · simpa [storedEbank, heb, hbb] using hebank
  · simpa [storedFbank, hfb, hbb] using hfbank

/-! ### TS -/

/-- A as TS leaves it before its store: +1 or -1 where it held overflow (R266). -/
def correctedA (v : Acc) : Acc :=
  match ovf v with
  | .pos => 0o000001#16
  | .neg => 0o177776#16
  | .none => v

/-- Everything the overflow test of TS can do. -/
theorem tsOverflow_eq (s : State) :
    tsOverflow s = { s with a := correctedA s.a, z := if ovf s.a = .none then s.z else s.z + 1#12 } := by
  unfold tsOverflow correctedA
  cases ovf s.a <;> rfl

/-- The store of TS is of the A before the overflow test, and it comes last (decision D21). -/
theorem transferToStorage_spec (k : Addr) (s : State) :
    ∃ t, transferToStorage k s = .next t ∧ t.a = storedA (correctedA s.a) (resolve s k) s.a
      ∧ t.l = storedL s.l (resolve s k) s.a ∧ t.q = storedQ s.q (resolve s k) s.a ∧ StoredBanks s (resolve s k) s.a t
      ∧ SameOutside s t ∧ EndsAt s t (storedZ (if ovf s.a = .none then s.z else s.z + 1#12) (resolve s k) s.a) 2 := by
  unfold transferToStorage
  rw [tsOverflow_eq]
  obtain ⟨t, hdone, ha, hl, hq, hrest⟩ := (wrOp_stored _ k s.a).done 2
  exact ⟨t, hdone, ha.trans (wrOp_a ..), hl.trans (wrOp_l ..), hq.trans (wrOp_q ..), hrest⟩

/-- Overflow correction takes the low 14 bits as they are, among them the address TCAA jumps to (R268). -/
theorem ovc_address (v : Acc) : (ovc v).extractLsb' 0 12 = v.setWidth 12 := by
  apply BitVec.eq_of_toNat_eq
  rw [BitVec.extractLsb'_toNat, ovc_toNat, BitVec.toNat_setWidth]
  omega

/-! ### The exchanges -/

theorem exchangeL_stored (k : Addr) (s : State) : Stored s (resolve s k) (sext16 s.l) (exchangeL k s) :=
  (wrOp_stored s k _).setL _

theorem exchangeL_a (k : Addr) (s : State) : (exchangeL k s).a = storedA s.a (resolve s k) (sext16 s.l) := wrOp_a ..

theorem exchangeL_q (k : Addr) (s : State) : (exchangeL k s).q = storedQ s.q (resolve s k) (sext16 s.l) := wrOp_q ..

/-- LXCH of any address, address 7 for ZL among them (R270, R271). -/
theorem done_exchangeL (k : Addr) (s : State) :
    ∃ t, done (exchangeL k s) 2 = .next t ∧ t.l = ovc (rdOp s k) ∧ t.a = storedA s.a (resolve s k) (sext16 s.l)
      ∧ t.q = storedQ s.q (resolve s k) (sext16 s.l) ∧ StoredBanks s (resolve s k) (sext16 s.l) t ∧ SameOutside s t
      ∧ EndsAt s t (storedZ s.z (resolve s k) (sext16 s.l)) 2 := by
  obtain ⟨t, hdone, ha, hl, hq, hrest⟩ := (exchangeL_stored k s).done 2
  exact ⟨t, hdone, hl, ha.trans (exchangeL_a k s), hq.trans (exchangeL_q k s), hrest⟩

/-- QXCH of any address, address 7 for ZQ among them (R272, R273). -/
theorem done_exchangeQ (k : Addr) (s : State) :
    ∃ t, done (exchangeQ k s) 2 = .next t ∧ t.q = rdOp s k ∧ t.a = storedA s.a (resolve s k) s.q
      ∧ t.l = storedL s.l (resolve s k) s.q ∧ StoredBanks s (resolve s k) s.q t ∧ SameOutside s t
      ∧ EndsAt s t (storedZ s.z (resolve s k) s.q) 2 := by
  obtain ⟨t, hdone, ha, hl, hq, hrest⟩ := ((wrOp_stored s k s.q).setQ (rdOp s k)).done 2
  exact ⟨t, hdone, hq, ha.trans (wrOp_a ..), hl.trans (wrOp_l ..), hrest⟩

/-- XCH of any address, which is the second half of DXCH too (R269, R274). -/
theorem done_exchangeA (k : Addr) (s : State) (n : Nat) :
    ∃ t, done (exchangeA k s) n = .next t ∧ t.a = rdOp s k ∧ t.l = storedL s.l (resolve s k) s.a
      ∧ t.q = storedQ s.q (resolve s k) s.a ∧ StoredBanks s (resolve s k) s.a t ∧ SameOutside s t
      ∧ EndsAt s t (storedZ s.z (resolve s k) s.a) n := by
  obtain ⟨t, hdone, ha, hl, hq, hrest⟩ := ((wrOp_stored s k s.a).setA (rdOp s k)).done n
  exact ⟨t, hdone, ha, hl.trans (wrOp_l ..), hq.trans (wrOp_q ..), hrest⟩

/-! ### Exchanges with a register of 15 bits or fewer -/

theorem rdOp_regAddr (s : State) {r : CpuReg} (ha : r ≠ .a) (hq : r ≠ .q) : rdOp s r.addr = sext16 (regRead15 s r) := by
  cases r with
  | a => exact absurd rfl ha
  | q => exact absurd rfl hq
  | _ => rfl

theorem wrOp_regAddr (s : State) {r : CpuReg} (ha : r ≠ .a) (hq : r ≠ .q) (v : Acc) :
    wrOp s r.addr v = regWrite15 s r (ovc v) := by
  cases r with
  | a => exact absurd rfl ha
  | q => exact absurd rfl hq
  | _ => rfl

theorem rdOp_zeroAddr (s : State) : rdOp s CpuReg.zero.addr = 0#16 :=
  (rdOp_regAddr s (r := .zero) nofun nofun).trans (by decide : sext16 0#15 = 0#16)

/-- Between L and such a register words are exchanged, with nothing to extend or to correct. -/
theorem exchangeL_regAddr (s : State) {r : CpuReg} (ha : r ≠ .a) (hq : r ≠ .q) :
    exchangeL r.addr s = (regWrite15 s r s.l).setL (regRead15 s r) := by
  rw [exchangeL, wrOp_regAddr s ha hq, rdOp_regAddr s ha hq, ovc_sext16, ovc_sext16]

theorem exchangeA_regAddr (s : State) {r : CpuReg} (ha : r ≠ .a) (hq : r ≠ .q) :
    exchangeA r.addr s = (regWrite15 s r (ovc s.a)).setA (sext16 (regRead15 s r)) := by
  rw [exchangeA, wrOp_regAddr s ha hq, rdOp_regAddr s ha hq]

/-- DTCF exchanges L with Z, then A with FB (R279). -/
theorem exchange_fb_z (s : State) :
    exchangeA CpuReg.fb.addr (exchangeL CpuReg.z.addr s) =
      (((s.setZ (s.l.extractLsb' 0 12)).setL (zext15 s.z)).setFbank ((ovc s.a).extractLsb' 10 5)).setA
        (sext16 (fbWord s.fbank)) := by
  rw [exchangeL_regAddr s (r := .z) nofun nofun, exchangeA_regAddr _ (r := .fb) nofun nofun]
  rfl

/-- An address has no sign bit to extend. -/
theorem sext16_zext15 (z : Addr) : sext16 (zext15 z) = zext16 z := by
  apply BitVec.eq_of_toNat_eq
  rw [sext16_toNat, zext15_toNat, zext16_toNat]
  have := z.isLt
  omega

/-- DTCB exchanges L with BB, then A with Z (R280). -/
theorem exchange_z_bb (s : State) :
    exchangeA CpuReg.z.addr (exchangeL CpuReg.bb.addr s) =
      ((((s.setFbank (s.l.extractLsb' 10 5)).setEbank (s.l.extractLsb' 0 3)).setL (bbWord s.fbank s.ebank)).setZ
        ((ovc s.a).extractLsb' 0 12)).setA (zext16 s.z) := by
  rw [exchangeL_regAddr s (r := .bb) nofun nofun, exchangeA_regAddr _ (r := .z) nofun nofun, ← sext16_zext15]
  rfl

/-! ### DXCH -/

theorem ea_ne {f g : EAddr} (h : f ≠ g) : ea f ≠ ea g := fun he =>
  h (BitVec.eq_of_toNat_eq (by rw [← ea_toNat f, he, ea_toNat]))

theorem doubleExchange_eq {f : Addr} (h0 : f ≠ 0#12) (h2 : f ≠ 2#12) (s : State) :
    doubleExchange f s = done (exchangeA (f - 1#12) (exchangeL f s)) 3 := by
  rw [doubleExchange, if_neg h0, if_neg h2]
  rfl

end Sys2Proof.Machine

namespace Sys2Proof

open Machine

/-- Settles O36: the overflow test, then the store. -/
theorem transferToStorage : Obligations.TransferToStorage := fun k s =>
  ⟨hasWord10 rfl rfl rfl, transferToStorage_spec (ea k) s⟩

/-- Settles O37: OVSK is TS of A, whose store puts A back, and TCAA is TS of Z. -/
theorem overflowSkipAndJump : Obligations.OverflowSkipAndJump := by
  intro s
  refine ⟨⟨rfl, rfl⟩, ⟨rfl, rfl⟩, ?ovsk, ?tcaa⟩
  case ovsk =>
    obtain ⟨t, hexec, ha, hl, hq, hbanks, houtside, hends⟩ := transferToStorage_spec CpuReg.a.addr s
    rw [resolve_regAddr] at hbanks
    exact ⟨t, hexec, ha, hl, hq, registersOnly_of_storedBanks hbanks houtside (by decide), hends⟩
  case tcaa =>
    obtain ⟨t, hexec, ha, hl, hq, hbanks, houtside, hends⟩ := transferToStorage_spec CpuReg.z.addr s
    rw [resolve_regAddr] at hbanks
    exact ⟨t, hexec, ha, hl, hq, registersOnly_of_storedBanks hbanks houtside (by decide), ovc_address s.a ▸ hends⟩

/-- Settles O38: the exchange that DXCH makes of the high word, by itself. -/
theorem exchangeWithA : Obligations.ExchangeWithA := fun k s => ⟨hasWord10 rfl rfl rfl, done_exchangeA (ea k) s 2⟩

/-- Settles O39: the exchange that DXCH makes of the low word, by itself. -/
theorem exchangeWithL : Obligations.ExchangeWithL := fun k s => ⟨hasWord10 rfl rfl rfl, done_exchangeL (ea k) s⟩

/-- Settles O40: the exchange of Q, from K as an erasable address. -/
theorem exchangeWithQ : Obligations.ExchangeWithQ := fun k s => ⟨hasWord10 rfl rfl rfl, done_exchangeQ (ea k) s⟩

/-- Settles O41: LXCH and QXCH of address 7, which reads as 0 and keeps nothing (R271, R273). -/
theorem zeroRegisters : Obligations.ZeroRegisters := by
  intro s
  refine ⟨⟨rfl, rfl⟩, ⟨rfl, rfl⟩, ?zl, ?zq⟩
  case zl =>
    obtain ⟨t, hexec, hl, ha, hq, hbanks, houtside, hends⟩ := done_exchangeL CpuReg.zero.addr s
    rw [resolve_regAddr] at hbanks
    rw [rdOp_zeroAddr] at hl
    exact ⟨t, hexec, hl, ha, hq, registersOnly_of_storedBanks hbanks houtside (by decide), hends⟩
  case zq =>
    obtain ⟨t, hexec, hq, ha, hl, hbanks, houtside, hends⟩ := done_exchangeQ CpuReg.zero.addr s
    rw [resolve_regAddr] at hbanks
    rw [rdOp_zeroAddr] at hq
    exact ⟨t, hexec, hq, ha, hl, registersOnly_of_storedBanks hbanks houtside (by decide), hends⟩

/-- Settles O42: the pair (L, Q) by its own clause, any other by the exchange of L and then that of A. -/
theorem doubleExchange : Obligations.DoubleExchange := by
  intro f s hf lo
  refine ⟨hasWord10 rfl rfl rfl, ?_⟩
  by_cases h2 : f = 2#10
  · subst h2
    obtain ⟨t, hdone, ha, hl, hq, ⟨hbanks, hcells, houtside⟩, hends⟩ :=
      done_registersOnly (((s.setA s.q).setL (ovc s.a)).setQ (sext16 s.l)) 3
    exact ⟨t, hdone, houtside, fun _ => ⟨ha, hl, hq, ⟨hbanks, hcells, houtside⟩, hends⟩, fun hne => absurd rfl hne⟩
  · obtain ⟨hbanksLow, hzLow, houtsideLow, hmctLow⟩ := exchangeL_stored (ea f) s
    obtain ⟨t, hdone, ha, hl, hq, hbanks, houtside, hnext, hext, htook⟩ :=
      done_exchangeA (ea f - 1#12) (exchangeL (ea f) s) 3
    have hexec : exec (.dxch f) s = .next t := (doubleExchange_eq (ea_ne hf) (ea_ne h2) s).trans hdone
    have hmct : Took s t 3 := htook.trans (congrArg (· + 3) hmctLow)
    exact ⟨t, hexec, houtsideLow.trans houtside, fun he => absurd he h2, fun _ => ⟨exchangeL (ea f) s, rfl,
      exchangeL_a (ea f) s, exchangeL_q (ea f) s, hzLow, hbanksLow, houtsideLow, ha, hl, hq, hbanks, hnext, hext, hmct⟩⟩

/-- Settles O43: DXCH of two registers, of which the instruction ends by fetching through what it wrote. -/
theorem doubleTransfer : Obligations.DoubleTransfer := by
  intro s
  refine ⟨⟨rfl, rfl⟩, ⟨rfl, rfl⟩, ?dtcf, ?dtcb⟩
  case dtcf =>
    obtain ⟨t, hdone, hends, ha, hl, hq, ⟨hebank, hfbank⟩, herasable, houtside⟩ :=
      done_spec (exchangeA CpuReg.fb.addr (exchangeL CpuReg.z.addr s)) 3
    rw [exchange_fb_z] at hends ha hl hq hebank hfbank herasable houtside
    exact ⟨t, hdone, ha, hfbank, hl, hq, hebank, sameErasable_of_eq herasable, houtside, hends⟩
  case dtcb =>
    obtain ⟨t, hdone, hends, ha, hl, hq, ⟨hebank, hfbank⟩, herasable, houtside⟩ :=
      done_spec (exchangeA CpuReg.z.addr (exchangeL CpuReg.bb.addr s)) 3
    rw [exchange_z_bb] at hends ha hl hq hebank hfbank herasable houtside
    exact ⟨t, hdone, ha, hl, hfbank, hebank, hq, sameErasable_of_eq herasable, houtside, hends⟩

end Sys2Proof
end

section
/-! The sums, the differences and the AND (43_arithmetic_logic.md R300 to R306, R315), and the statements about AD, ADS,
SU, MSU, DAS, their doubling forms and MASK (O44 to O49, O54). -/

namespace Sys2Proof.Machine

/-! ### Differences -/

/-- The 16-bit modular difference: one less where bit 16 of the two's-complement difference is set (R304). -/
theorem modDiff16_eq (x y : Acc) : modDiff16 x y = if (x - y).toNat < 0o100000 then x - y else x - y - 1#16 := by
  simp only [modDiff16, bit15_iff_not_lt, ite_not]

/-- The 15-bit modular difference, by bit 15 (R304, decision D24). -/
theorem modDiff15_eq (x y : Word) : modDiff15 x y = if (x - y).toNat < 0o40000 then x - y else x - y - 1#15 := by
  simp only [modDiff15, bit14_iff, ← not_lt, ite_not]

/-! ### Stores of a sum -/

/-- A already holds what is stored to A. -/
@[simp] theorem storedA_self (loc : Loc) (v : Acc) : storedA v loc v = v := ite_self v

/-- An instruction that only stores `v` to K. -/
theorem done_wrOp (k : Addr) (v : Acc) (s : State) (n : Nat) :
    ∃ t, done (wrOp s k v) n = .next t ∧ t.a = storedA s.a (resolve s k) v ∧ t.l = storedL s.l (resolve s k) v
      ∧ t.q = storedQ s.q (resolve s k) v ∧ StoredBanks s (resolve s k) v t ∧ SameOutside s t
      ∧ EndsAt s t (storedZ s.z (resolve s k) v) n := by
  obtain ⟨t, hdone, ha, hl, hq, hrest⟩ := (wrOp_stored s k v).done n
  exact ⟨t, hdone, ha.trans (wrOp_a ..), hl.trans (wrOp_l ..), hq.trans (wrOp_q ..), hrest⟩

/-- DAS of any pair but those of fields 0 and 1: two stores, then L and A (R305). -/
theorem doubleAddToStorage_eq {f : Addr} (h0 : f ≠ 0#12) (h1 : f ≠ 1#12) (s : State) :
    doubleAddToStorage f s =
      done (((wrOp (wrOp s f (dasLow s f)) (f - 1#12) (dasHigh s f)).setL 0#15).setA (carry (dasHigh s f))) 3 := by
  rw [doubleAddToStorage, if_neg h0, if_neg h1]
  rfl

/-- DAS A doubles the pair A and L, whose words it reads as its operands (R306). -/
theorem doubleAddToStorage_one (s : State) :
    doubleAddToStorage 1#12 s =
      done ((s.setL (ovc (add1c16 (sext16 s.l) (sext16 s.l)))).setA
        (add1c16 (add1c16 s.a s.a) (carry (add1c16 (sext16 s.l) (sext16 s.l))))) 3 := rfl

/-- An instruction that only writes L and A. -/
theorem done_setL_setA (l : Word) (a : Acc) (s : State) (n : Nat) :
    ∃ t, done ((s.setL l).setA a) n = .next t ∧ t.l = l ∧ t.a = a ∧ t.q = s.q ∧ RegistersOnly s t
      ∧ EndsAt s t s.z n := by
  obtain ⟨t, hdone, ha, hl, hrest⟩ := done_registersOnly ((s.setL l).setA a) n
  exact ⟨t, hdone, hl, ha, hrest⟩

/-! ### MASK -/

/-- The AND by the kind of location: of A with itself is A (R315). -/
theorem mask_eq (k : Addr) (s : State) :
    mask k s = done (s.setA (if resolve s k = .reg .a then s.a
      else if resolve s k = .reg .q then s.a &&& s.q
      else sext16 (ovc s.a &&& memRead s k))) 2 := by
  unfold mask
  simp only [is16_iff]
  by_cases ha : resolve s k = .reg .a
  · have hread : rdOp s k = s.a := by rw [rdOp, ha]
    rw [if_pos (.inl ha), if_pos ha, hread, BitVec.and_self]
  · rw [if_neg ha]
    by_cases hq : resolve s k = .reg .q
    · have hread : rdOp s k = s.q := by rw [rdOp, hq]
      rw [if_pos (.inr hq), if_pos hq, hread]
    · rw [if_neg (not_or.mpr ⟨ha, hq⟩), if_neg hq]

end Sys2Proof.Machine

namespace Sys2Proof

open Machine

/-- Settles O44: AD loads A, from K's value added to A. -/
theorem addToAccumulator : Obligations.AddToAccumulator := fun k s =>
  ⟨hasWord12 rfl rfl rfl, done_loadHigh (add1c16 s.a) k s 2⟩

/-- Settles O45: DOUBLE is AD of A, whose re-write changes nothing, and DDOUBL is DAS of the pair (A, L). -/
theorem doubling : Obligations.Doubling := by
  intro s twice
  have pair : ∃ t, Machine.doubleAddToStorage 1#12 s = .next t ∧ twice t := by
    rw [doubleAddToStorage_one]
    exact done_setL_setA _ _ s 3
  refine ⟨⟨rfl, rfl⟩, ⟨rfl, rfl⟩, ⟨rfl, rfl⟩, rfl, ?_, pair, pair⟩
  obtain ⟨-, t, hexec, ha, hl, hq, hbanks, houtside, hcells, hends⟩ := addToAccumulator CpuReg.a.addr s
  rw [resolve_regAddr] at hcells
  exact ⟨t, hexec, ha, hl, hq, ⟨hbanks, hcells.sameErasable, houtside⟩, hends⟩

/-- Settles O46: the sum goes to A, and then to K as any store does. -/
theorem addToStorage : Obligations.AddToStorage := by
  intro k s loc sum
  obtain ⟨t, hexec, ha, hrest⟩ := done_wrOp (ea k) sum (s.setA sum) 2
  exact ⟨hasWord10 rfl rfl rfl, t, hexec, ha.trans (storedA_self ..), hrest⟩

/-- Settles O47: SU loads A, from K's value taken from A. -/
theorem subtract : Obligations.Subtract := fun k s =>
  ⟨hasWord10 rfl rfl rfl, done_loadHigh (sub1c16 s.a) (ea k) s 2⟩

/-- Settles O48: MSU loads A with one of the two modular differences, by the kind of K. -/
theorem modularSubtract : Obligations.ModularSubtract := by
  intro k s d16 d15
  simp only [d16, d15, ← modDiff16_eq, ← modDiff15_eq, ← is16_iff]
  exact ⟨hasWord10 rfl rfl rfl, done_loadHigh (fun v => if is16 s (ea k) then modDiff16 s.a v
    else sext16 (modDiff15 (ovc s.a) (memRead s (ea k)))) (ea k) s 2⟩

/-- Settles O49: the store of the low sum, then in the state it leaves that of the high sum. -/
theorem doubleAddToStorage : Obligations.DoubleAddToStorage := by
  intro f s h0 h1 lo hi
  have hlow : Stored s (resolve s (ea f)) lo (wrOp s (ea f) lo) := wrOp_stored s (ea f) lo
  have hhigh := wrOp_stored (wrOp s (ea f) lo) (ea f - 1#12) hi
  obtain ⟨t, hdone, ha, hl, hq, hbanks, houtside, hnext, hext, htook⟩ := ((hhigh.setL 0#15).setA (carry hi)).done 3
  have hexec : exec (.das f) s = .next t := (doubleAddToStorage_eq (ea_ne h0) (ea_ne h1) s).trans hdone
  have hmct : Took s t 3 := htook.trans (congrArg (· + 3) hlow.mct)
  obtain ⟨_, _, hsbank, _⟩ := hlow.outside
  exact ⟨hasWord10 rfl rfl rfl, t, hexec, hl, ha, hlow.outside.trans houtside, wrOp s (ea f) lo, hlow.banks, hsbank,
    wrOp_q .., hlow.z, hq.trans (wrOp_q ..), hbanks, hnext, hext, hmct⟩

/-- Settles O54: one AND under two names, which writes A only. -/
theorem maskA : Obligations.MaskA := by
  intro k s post
  have mask : ∃ t, mask k s = .next t ∧ post t := by
    rw [mask_eq]
    exact done_registersOnly (s.setA _) 2
  exact ⟨hasWord12 rfl rfl rfl, hasWord12 rfl rfl rfl, mask, mask⟩

end Sys2Proof
end

section
/-! INCR, AUG and DIM (43_arithmetic_logic.md R307, R308, R310): the counted values, what the overflow of a counter does
beside the store, and the statements (O50, O51). -/

namespace Sys2Proof.Machine

/-! ### The counted values -/

/-- AUG goes one step away from zero, by the sign of the 16-bit value (R308). -/
theorem augmented_eq (v : Acc) :
    augmented v = add1c16 v (if v.toNat < 0o100000 then 0o000001#16 else 0o177776#16) := by
  simp only [augmented, bit15_iff_not_lt, ite_not, apply_ite (add1c16 v)]
  rfl

/-- DIM goes one step toward zero, where both zeros stay (R310). -/
theorem diminished_eq (v : Acc) :
    diminished v = if v = 0o000000#16 ∨ v = 0o177777#16 then v
      else add1c16 v (if v.toNat < 0o100000 then 0o177776#16 else 0o000001#16) := by
  simp only [diminished, isZero16_iff, bit15_iff_not_lt, ite_not, apply_ite (add1c16 v)]
  rfl

/-! ### The side effect of a counter -/

/-- What the store of a count does beside the store: the requests of a counter that overflows (R203). -/
def countRequests (s : State) (loc : Loc) (sum : Acc) : State := if ovf sum ≠ .none then locOverflow s loc else s

/-- The requests and the store touch different parts of the state, so their order does not matter. -/
theorem locOverflow_wrOp (s : State) (k : Addr) (v : Acc) :
    locOverflow (wrOp s k v) (resolve s k) = wrOp (locOverflow s (resolve s k)) k v := by
  simp only [wrOp_eq, locOverflow_eq]
  rfl

/-- A and Q are no counters, so that they are left out of the side effect makes no difference. -/
theorem storeCount_eq (k : Addr) (sum : Acc) (s : State) :
    storeCount k sum s = wrOp (countRequests s (resolve s k) sum) k sum := by
  unfold storeCount countRequests
  by_cases hovf : ovf sum = .none
  · simp only [hovf, ne_eq, not_true, and_false, if_false]
  · cases h16 : is16 s k with
    | false => simp only [hovf, ne_eq, not_false_eq_true, and_self, if_true, locOverflow_wrOp]
    | true =>
      have hnone : locOverflow s (resolve s k) = s := by
        rcases (is16_iff s k).mp h16 with hreg | hreg <;> rw [hreg] <;> rfl
      simp only [Bool.true_eq_false, false_and, if_false, hnone, ite_self]

/-- Everything the requests of a count can do. -/
theorem countRequests_eq (s : State) (loc : Loc) (sum : Acc) :
    countRequests s loc sum = { s with
      pending := if ovf sum ≠ .none ∧ loc = .eras 0#3 0o25#8 then s.pending ++ [.pinc .time2] else s.pending
      ruptReq := if ovf sum ≠ .none then
          (if loc = .eras 0#3 0o26#8 then s.ruptReq.put .t3rupt true
           else if loc = .eras 0#3 0o27#8 then s.ruptReq.put .t4rupt true
           else if loc = .eras 0#3 0o30#8 then s.ruptReq.put .t5rupt true
           else if loc = .eras 0#3 0o31#8 then s.ruptReq.put .t6rupt true
           else s.ruptReq)
          else s.ruptReq } := by
  unfold countRequests
  by_cases hovf : ovf sum = .none
  · simp only [hovf, ne_eq, not_true, false_and, if_false]
  · simp only [hovf, ne_eq, not_false_eq_true, true_and, if_true, locOverflow_eq]

/-- The store of a count, and the requests beside it (R203, R307, R308). -/
theorem done_storeCount (k : Addr) (sum : Acc) (s : State) :
    let loc := resolve s k
    ∃ t, done (storeCount k sum s) 2 = .next t ∧ t.a = storedA s.a loc sum ∧ t.l = storedL s.l loc sum
      ∧ t.q = storedQ s.q loc sum ∧ StoredBanks s loc sum t ∧ SameHidden s t ∧ SameChannels s t
      ∧ EndsAt s t (storedZ s.z loc sum) 2
      ∧ t.pending = (countRequests s loc sum).pending ∧ t.ruptReq = (countRequests s loc sum).ruptReq := by
  intro loc
  obtain ⟨t, hdone, ha, hl, hq, hbanks, ⟨⟨hruptReq, hpending⟩, hhidden, hchannels⟩, hends⟩ :=
    done_wrOp k sum (countRequests s loc sum) 2
  refine ⟨t, storeCount_eq k sum s ▸ hdone, ?_⟩
  rw [hpending, hruptReq]
  rw [countRequests_eq] at ha hl hq hbanks hhidden hchannels hends
  exact ⟨ha, hl, hq, hbanks, hhidden, hchannels, hends, rfl, rfl⟩

end Sys2Proof.Machine

namespace Sys2Proof

open Machine

/-- Settles O50: INCR and AUG store a count, and differ in the value they count to. -/
theorem incrementAndAugment : Obligations.IncrementAndAugment := by
  intro k s loc v post
  have count (sum : Acc) : ∃ t, done (storeCount (ea k) sum s) 2 = .next t ∧ post sum t := by
    have hstore := done_storeCount (ea k) sum s
    simp only [countRequests_eq] at hstore
    exact hstore
  refine ⟨hasWord10 rfl rfl rfl, hasWord10 rfl rfl rfl, count _, ?_⟩
  rw [← augmented_eq]
  exact count (augmented v)

/-- Settles O51: the store of the diminished value, with nothing beside it. -/
theorem diminish : Obligations.Diminish := by
  intro k s loc v r
  have hr : diminished v = r := diminished_eq v
  exact ⟨hasWord10 rfl rfl rfl, hr ▸ done_wrOp (ea k) (diminished v) s 2⟩

end Sys2Proof
end

section
/-! MP, SQUARE and DV (43_arithmetic_logic.md R311 to R314): words given by a sign and a magnitude, the value of a
product and of a quotient, and the statements (O52, O53). -/

namespace Sys2Proof.Machine

/-! ### Words by sign and magnitude -/

/-- The integer of a sign (true is negative) and a magnitude. -/
def withSign (negative : Bool) (m : Int) : Int := if negative then -m else m

@[simp] theorem withSign_false (m : Int) : withSign false m = m := rfl

@[simp] theorem withSign_true (m : Int) : withSign true m = -m := rfl

@[simp] theorem natAbs_withSign (negative : Bool) (m : Int) : (withSign negative m).natAbs = m.natAbs := by
  cases negative
  · rfl
  · exact Int.natAbs_neg m

theorem withSign_natAbs (p : Int) : withSign (decide (p < 0)) p.natAbs = p := by
  by_cases h : p < 0
  · rw [decide_eq_true h, withSign_true]
    omega
  · rw [decide_eq_false h, withSign_false]
    omega

/-- A product has the sign by which its factors differ. -/
theorem withSign_mul_add (negative negative' : Bool) (m n r : Int) :
    withSign (negative.xor negative') m * withSign negative' n + withSign negative r
      = withSign negative (m * n + r) := by
  cases negative <;> cases negative' <;> simp <;> ring

theorem val_signedWord (negative : Bool) {m : Nat} (h : m < 0o40000) :
    val (signedWord negative m) = withSign negative m := by
  rw [val_eq, signedWord_toNat negative h]
  cases negative
  · exact if_pos h
  · simp only [if_true, withSign_true]
    omega

theorem sign_signedWord (negative : Bool) {m : Nat} (h : m < 0o40000) :
    (signedWord negative m).getLsbD 14 = negative := by
  rw [Bool.eq_iff_iff, bit14_iff, signedWord_toNat negative h]
  cases negative
  · simp only [Bool.false_eq_true, if_false, iff_false]
    omega
  · simp only [if_true, iff_true]
    omega

/-- A word that is neither zero has the sign bit of its value (R190). -/
theorem sign_eq_val_neg {w : Word} (h : val w ≠ 0) : w.getLsbD 14 = decide (val w < 0) := by
  have hw := w.isLt
  rw [val_eq] at h
  rw [Bool.eq_iff_iff, bit14_iff, decide_eq_true_iff, val_eq]
  split at h <;> split <;> omega

theorem val_eq_zero_iff (w : Word) : val w = 0 ↔ w = 0o00000#15 ∨ w = 0o77777#15 := by
  have hw := w.isLt
  rw [val_eq, ← BitVec.toNat_inj, ← BitVec.toNat_inj, BitVec.toNat_ofNat, BitVec.toNat_ofNat]
  split <;> omega

theorem natAbs_val_lt (w : Word) : (val w).natAbs < 2 ^ 14 := by
  obtain ⟨hlo, hhi⟩ := val_bounds w
  omega

/-! ### Instructions that end with results in A and L -/

/-- What MP and DV leave alone: everything but A, L and the free-value counter, the ending aside. -/
def ResultFrame (s t : State) (n : Nat) : Prop :=
  t.q = s.q ∧ SameBanks s t ∧ SameErasable s t ∧ SameRequests s t ∧ SameChannels s t ∧ t.inh = s.inh ∧ t.isr = s.isr
    ∧ t.rope = s.rope ∧ t.inputChans = s.inputChans ∧ t.env = s.env ∧ EndsAt s t s.z n

theorem done_resultFrame (u : State) (n : Nat) :
    ∃ t, done u n = .next t ∧ t.a = u.a ∧ t.l = u.l ∧ t.freeCount = u.freeCount ∧ ResultFrame u t n := by
  obtain ⟨t, hdone, ha, hl, hq, ⟨hbanks, hcells, hrequests, hhidden, hchannels⟩, hends⟩ := done_registersOnly u n
  obtain ⟨hinh, hisr, hrope, hinputs, henv, hfree⟩ := hhidden
  exact ⟨t, hdone, ha, hl, hfree, hq, hbanks, hcells, hrequests, hchannels, hinh, hisr, hrope, hinputs, henv, hends⟩

/-- The ending with results that the spec gives. -/
theorem done_results (r : Acc × Word) (s : State) (n : Nat) :
    ∃ t, done ((s.setA r.1).setL r.2) n = .next t ∧ ResultFrame s t n ∧ t.a = r.1 ∧ t.l = r.2
      ∧ t.freeCount = s.freeCount := by
  obtain ⟨t, hdone, ha, hl, hfree, hframe⟩ := done_resultFrame ((s.setA r.1).setL r.2) n
  exact ⟨t, hdone, hframe, ha, hl, hfree⟩

/-- The ending with results that the spec leaves free. -/
theorem done_freeResults (r : Acc × Word) (s : State) (n : Nat) :
    ∃ t, done ((s.setA r.1).setL r.2).draw n = .next t ∧ ResultFrame s t n := by
  obtain ⟨t, hdone, _, _, _, hframe⟩ := done_resultFrame ((s.setA r.1).setL r.2).draw n
  exact ⟨t, hdone, hframe⟩

/-! ### The product -/

/-- `a` and `l` hold the product of `x` and `y` in double precision: its value, agreeing signs, and which zero
(R311). -/
def HoldsProduct (x y : Word) (a : Acc) (l : Word) : Prop :=
  ∃ hi : Word, a = sext16 hi ∧ val2 hi l = val x * val y ∧ hi.getLsbD 14 = l.getLsbD 14
    ∧ (val x * val y = 0 →
        hi = (if x = 0o00000#15 ∧ val y < 0 ∨ x = 0o77777#15 ∧ 0 < val y then 0o77777#15 else 0o00000#15))

/-- Two words of one sign, whose magnitudes are the two halves of a magnitude of 28 bits. -/
theorem val2_signedWord (negative : Bool) {m : Nat} (h : m < 2 ^ 28) :
    val2 (signedWord negative (m / 2 ^ 14)) (signedWord negative (m % 2 ^ 14)) = withSign negative m := by
  rw [val2, val_signedWord negative (by omega), val_signedWord negative (by omega)]
  cases negative
  · simp only [withSign_false]
    omega
  · simp only [withSign_true]
    omega

theorem natAbs_val_mul_lt (x y : Word) : (val x * val y).natAbs < 2 ^ 28 := by
  rw [Int.natAbs_mul]
  calc (val x).natAbs * (val y).natAbs < 2 ^ 14 * 2 ^ 14 := Nat.mul_lt_mul'' (natAbs_val_lt x) (natAbs_val_lt y)
    _ = 2 ^ 28 := rfl

theorem holdsProduct (x y : Word) : HoldsProduct x y (product x y).1 (product x y).2 := by
  unfold product
  by_cases hzero : val x * val y = 0
  · rw [if_neg (not_not_intro hzero)]
    by_cases hminus : x = 0o00000#15 ∧ val y < 0 ∨ x = 0o77777#15 ∧ 0 < val y
    · rw [if_pos hminus]
      exact ⟨0o77777#15, by decide, hzero ▸ by decide, rfl, fun _ => (if_pos hminus).symm⟩
    · rw [if_neg hminus]
      exact ⟨0o00000#15, by decide, hzero ▸ by decide, rfl, fun _ => (if_neg hminus).symm⟩
  · have hlt := natAbs_val_mul_lt x y
    rw [if_pos hzero]
    refine ⟨_, rfl, (val2_signedWord _ hlt).trans (withSign_natAbs _), ?_, fun h => absurd h hzero⟩
    rw [sign_signedWord _ (by omega), sign_signedWord _ (by omega)]

/-- MP of any operand: but for MP A with overflow in A, the product of the corrected factors (R311, R312, U8). -/
theorem multiply_spec (k : Addr) (s : State) :
    ∃ t, multiply k s = .next t ∧ ResultFrame s t 3
      ∧ (¬(k = 0#12 ∧ ovf s.a ≠ .none) →
          HoldsProduct (ovc s.a) (ovc (rdOp s k)) t.a t.l ∧ t.freeCount = s.freeCount) := by
  unfold multiply
  by_cases hfree : k = 0#12 ∧ ovf s.a ≠ .none
  · rw [if_pos hfree]
    obtain ⟨t, hdone, hframe⟩ := done_freeResults (Config.squareMessy s.freeCount s.a) s 3
    exact ⟨t, hdone, hframe, fun hnot => absurd hfree hnot⟩
  · rw [if_neg hfree]
    obtain ⟨t, hdone, hframe, ha, hl, hcount⟩ := done_results (product (ovc s.a) (ovc (rdOp s k))) s 3
    refine ⟨t, hdone, hframe, fun _ => ⟨?_, hcount⟩⟩
    rw [ha, hl]
    exact holdsProduct _ _

/-! ### The quotient -/

/-- The sign of the dividend: that of its low word where the high word is a zero (R313). -/
def dividendSign (a l : Word) : Bool := if a = 0o00000#15 ∨ a = 0o77777#15 then l.getLsbD 14 else a.getLsbD 14

/-- The sign of the quotient (R313). -/
def quotientSign (a l k : Word) : Bool := (dividendSign a l).xor (k.getLsbD 14)

/-- A with a quotient of magnitude 0, by its sign (R313). -/
theorem sext16_signedWord_zero (negative : Bool) :
    sext16 (signedWord negative 0) = if negative then 0o177777#16 else 0o000000#16 := by
  cases negative <;> decide

/-- A with a quotient of the largest magnitude, by its sign (R313). -/
theorem sext16_signedWord_max (negative : Bool) :
    sext16 (signedWord negative 0o37777) = if negative then 0o140000#16 else 0o037777#16 := by
  cases negative <;> decide

/-! The cases of R313, each under the conditions that select it. -/

section

variable {a l k : Word}

theorem quotient_of_zero (hD : val2 a l = 0) (hd : val k ≠ 0) :
    quotient a l k = some (if quotientSign a l k then 0o177777#16 else 0o000000#16, l) := by
  rw [← sext16_signedWord_zero]
  simp only [quotient, isZero15_iff]
  exact if_pos ⟨hD, hd⟩

theorem quotient_of_zero_by_zero (hD : val2 a l = 0) (hd : val k = 0) :
    quotient a l k = some (if quotientSign a l k then 0o140000#16 else 0o037777#16, l) := by
  rw [← sext16_signedWord_max]
  simp only [quotient, isZero15_iff]
  rw [if_neg fun h => h.2 hd, if_pos ⟨hD, hd⟩]
  rfl

theorem quotient_of_equal (hD : val2 a l ≠ 0) (heq : (val2 a l).natAbs = 2 ^ 14 * (val k).natAbs) :
    quotient a l k = some (if quotientSign a l k then 0o140000#16 else 0o037777#16, a) := by
  rw [← sext16_signedWord_max]
  simp only [quotient, isZero15_iff]
  rw [if_neg fun h => hD h.1, if_neg fun h => hD h.1, if_pos heq]
  rfl

theorem quotient_of_lt (hD : val2 a l ≠ 0) (hlt : (val2 a l).natAbs < 2 ^ 14 * (val k).natAbs) :
    quotient a l k = some (sext16 (signedWord (quotientSign a l k) ((val2 a l).natAbs / (val k).natAbs)),
      signedWord (dividendSign a l) ((val2 a l).natAbs % (val k).natAbs)) := by
  simp only [quotient, isZero15_iff]
  rw [if_neg fun h => hD h.1, if_neg fun h => hD h.1, if_neg hlt.ne, if_pos hlt]
  rfl

end

/-- The low word never outweighs a high word that is not zero. -/
theorem dividendSign_eq {a l : Word} (h : val2 a l ≠ 0) : dividendSign a l = decide (val2 a l < 0) := by
  obtain ⟨hlo, hhi⟩ := val_bounds l
  unfold dividendSign
  simp only [← val_eq_zero_iff]
  unfold val2 at h ⊢
  by_cases ha : val a = 0
  · simp only [ha, zero_mul, zero_add, if_true] at h ⊢
    exact sign_eq_val_neg h
  · rw [if_neg ha, sign_eq_val_neg ha, decide_eq_decide]
    omega

/-- Division of the magnitudes: the remainder takes the sign of the dividend, the quotient the sign by which dividend
and divisor differ (R313). -/
theorem withSign_div_add_mod (D d : Int) :
    withSign ((decide (D < 0)).xor (decide (d < 0))) ↑(D.natAbs / d.natAbs) * d
      + withSign (decide (D < 0)) ↑(D.natAbs % d.natAbs) = D := by
  have hmag : (↑(D.natAbs / d.natAbs) * ↑d.natAbs + ↑(D.natAbs % d.natAbs) : Int) = D.natAbs :=
    mod_cast Nat.div_add_mod' D.natAbs d.natAbs
  have hsigns := withSign_mul_add (decide (D < 0)) (decide (d < 0)) ↑(D.natAbs / d.natAbs) d.natAbs
    ↑(D.natAbs % d.natAbs)
  rwa [hmag, withSign_natAbs, withSign_natAbs] at hsigns

/-- A and L after a division with a divisor that is large enough: quotient and remainder with their signs (R313). -/
theorem val_quotient {a l k : Word} (hD : val2 a l ≠ 0) (hlt : (val2 a l).natAbs < 2 ^ 14 * (val k).natAbs) :
    let quot := signedWord (quotientSign a l k) ((val2 a l).natAbs / (val k).natAbs)
    let rem := signedWord (dividendSign a l) ((val2 a l).natAbs % (val k).natAbs)
    val quot * val k + val rem = val2 a l ∧ (val rem).natAbs < (val k).natAbs ∧ quot.getLsbD 14 = quotientSign a l k
      ∧ rem.getLsbD 14 = dividendSign a l := by
  have hk : 0 < (val k).natAbs := by omega
  have hquot : (val2 a l).natAbs / (val k).natAbs < 0o40000 := Nat.div_lt_of_lt_mul (hlt.trans_eq (Nat.mul_comm _ _))
  have hmod : (val2 a l).natAbs % (val k).natAbs < (val k).natAbs := Nat.mod_lt _ hk
  have hrem : (val2 a l).natAbs % (val k).natAbs < 0o40000 := hmod.trans (natAbs_val_lt k)
  have hsk : k.getLsbD 14 = decide (val k < 0) := sign_eq_val_neg (by omega)
  refine ⟨?_, ?_, sign_signedWord _ hquot, sign_signedWord _ hrem⟩
  · rw [val_signedWord _ hquot, val_signedWord _ hrem, quotientSign, hsk, dividendSign_eq hD]
    exact withSign_div_add_mod _ _
  · rwa [val_signedWord _ hrem, natAbs_withSign]

/-- DV with the results of R313, where the divisor is not too small. -/
theorem execDv_of_some {k : EAddr} {s : State} {r : Acc × Word}
    (h : quotient (ovc s.a) s.l (ovc (rdOp s (ea k))) = some r) :
    execDv k s = done ((s.setA r.1).setL r.2) 6 := by
  simp only [execDv, h]

/-- DV with free results, where the divisor is too small (decision D11, U2). -/
theorem execDv_of_none {k : EAddr} {s : State} (h : quotient (ovc s.a) s.l (ovc (rdOp s (ea k))) = none) :
    ∃ r : Acc × Word, execDv k s = done ((s.setA r.1).setL r.2).draw 6 := by
  simp only [execDv, h]
  exact ⟨_, rfl⟩

/-- DV of any operand: A and L take the results that R313 gives, if it gives any. -/
theorem execDv_spec (k : EAddr) (s : State) :
    ∃ t, execDv k s = .next t ∧ ResultFrame s t 6
      ∧ ∀ a l, quotient (ovc s.a) s.l (ovc (rdOp s (ea k))) = some (a, l) → t.a = a ∧ t.l = l := by
  cases h : quotient (ovc s.a) s.l (ovc (rdOp s (ea k))) with
  | none =>
    obtain ⟨r, hexec⟩ := execDv_of_none h
    obtain ⟨t, hdone, hframe⟩ := done_freeResults r s 6
    exact ⟨t, hexec.trans hdone, hframe, nofun⟩
  | some r =>
    obtain ⟨t, hdone, hframe, ha, hl, _⟩ := done_results r s 6
    refine ⟨t, (execDv_of_some h).trans hdone, hframe, fun a l hr => ?_⟩
    cases hr
    exact ⟨ha, hl⟩

end Sys2Proof.Machine

namespace Sys2Proof

open Machine

/-- Settles O52: one multiplication; SQUARE is MP of A, so that its factors are determined unless A holds overflow. -/
theorem multiply : Obligations.Multiply := by
  intro k s frame product
  refine ⟨hasWord12 rfl rfl rfl, ⟨rfl, rfl⟩, multiply_spec k s, ?_⟩
  obtain ⟨t, hexec, hframe, hproduct⟩ := multiply_spec CpuReg.a.addr s
  exact ⟨t, hexec, hframe, fun hnone => hproduct fun ⟨_, hovf⟩ => hovf hnone⟩

/-- Settles O53: the quotient by the cases of R313, each under the condition that selects it. -/
theorem divide : Obligations.Divide := by
  intro k s a d D sD sq
  obtain ⟨t, hexec, ⟨hq, hbanks, hcells, hrequests, hchannels, hinh, hisr, hrope, hinputs, henv, hends⟩, hresults⟩ :=
    execDv_spec k s
  refine ⟨hasWord10 rfl rfl rfl, t, hexec, hq, hbanks, hcells, hrequests, hchannels, hinh, hisr, hrope, hinputs, henv,
    hends, ?zeroDividend, ?zeroByZero, ?equal, ?larger⟩
  case zeroDividend => exact fun hD hd => hresults _ _ (quotient_of_zero hD hd)
  case zeroByZero => exact fun hD hd => hresults _ _ (quotient_of_zero_by_zero hD hd)
  case equal => exact fun hD heq => hresults _ _ (quotient_of_equal hD heq)
  case larger =>
    intro hD hlt
    obtain ⟨hquotient, hremainder⟩ := hresults _ _ (quotient_of_lt hD hlt)
    rw [hquotient, hremainder]
    exact ⟨_, rfl, val_quotient hD hlt⟩

end Sys2Proof
end

section
/-! The channel instructions (44_io_channel.md R341 to R347): an instruction that ends after a channel write, in the terms
of the statements, and the statements (O55, O56). -/

namespace Sys2Proof.Machine

/-- A channel instruction with peripheral code 0 has its channel number for a word (30_encoding.md R155). -/
theorem hasWord9_zero {i : Instr} {ext : Bool} {c : ChanNo} (hext : extOf i = ext) (hword : encode i = word9 0 c) :
    HasWord i ext (operand9 c) :=
  BitVec.zero_add (operand9 c) ▸ hasWord9 hext hword rfl

/-- The channels lie in L, Q, the superbank bits and the channel cells (10_state.md R77, R80). -/
theorem chanRead_congr {s t : State} (hl : t.l = s.l) (hq : t.q = s.q) (hsbank : t.sbank = s.sbank)
    (hchan : t.chan = s.chan) (c : ChanNo) : chanRead t c = chanRead s c := by
  unfold chanRead
  rw [hl, hq, hsbank, hchan]

/-- What channel 7 takes is a mask of what is written (10_state.md R80). -/
theorem chanValue_eq (c : ChanNo) (v : Acc) :
    chanValue c v = if c = 2#9 then v else if c = 7#9 then v &&& 0o000160#16 else sext16 (ovc v) := by
  unfold chanValue
  rw [field_shiftLeft_eq_and]
  rfl

/-- No channel is A, so putting A back after a channel write changes nothing. -/
theorem chanWrite_setA (s : State) (c : ChanNo) (v : Acc) : (chanWrite s c v).setA s.a = chanWrite s c v := by
  rw [chanWrite_eq]
  rfl

/-- The end of an instruction that has written a channel and then A: the channels are as the write left them, and outside
them the environment's observation is all that has changed. -/
theorem done_chanWrite_setA (s : State) (c : ChanNo) (v a : Acc) (n : Nat) :
    ∃ t, done ((chanWrite s c v).setA a) n = .next t ∧ t.a = a ∧ t.l = (if c = 1#9 then ovc v else s.l)
      ∧ t.q = (if c = 2#9 then v else s.q) ∧ (∀ d, chanRead t d = chanRead (chanWrite s c v) d)
      ∧ t.observed = .chanWrite c (chanValue c v) :: s.observed ∧ SameBanks s t ∧ SameErasable s t ∧ SameRequests s t
      ∧ SameHidden s t ∧ EndsAt s t s.z n := by
  obtain ⟨t, hdone, ha, hl, hq, ⟨hbanks, hcells, hrequests, hhidden, hsbank, hchan, hobserved⟩, hends⟩ :=
    done_registersOnly ((chanWrite s c v).setA a) n
  have hread : ∀ d, chanRead t d = chanRead (chanWrite s c v) d := chanRead_congr hl hq hsbank hchan
  rw [chanWrite_eq] at hl hq hobserved hbanks hcells hrequests hhidden hends
  exact ⟨t, hdone, ha, hl, hq, hread, hobserved, hbanks, hcells, hrequests, hhidden, hends⟩

/-- Settles O55: each takes a value into A and goes on; RAND, ROR and RXOR differ in how they combine it. -/
theorem channelReads : Obligations.ChannelReads := by
  intro c s post w
  have load (r : Acc) : ∃ t, done (s.setA r) 2 = .next t ∧ post r t := done_registersOnly (s.setA r) 2
  exact ⟨hasWord9_zero rfl rfl, hasWord9 rfl rfl rfl, hasWord9 rfl rfl rfl, hasWord9 rfl rfl rfl, load (chanRead s c),
    load (combine (· &&& ·) (· &&& ·) c s), load (combine (· ||| ·) (· ||| ·) c s), load (combine (· ^^^ ·) (· ^^^ ·) c s)⟩

/-- Settles O56: each writes a value to the channel and to A, which for WRITE is what A holds; what the channels then hold
is the statement about channel writes (O21). -/
theorem channelWrites : Obligations.ChannelWrites := by
  intro c s w post rAnd rOr
  have store (r a : Acc) : ∃ t, done ((chanWrite s c r).setA a) 2 = .next t ∧ t.a = a ∧ post r t := by
    obtain ⟨hwritten, hothers⟩ := channelStorage s c r
    obtain ⟨t, hdone, ha, hl, hq, hread, hobserved, hframe⟩ := done_chanWrite_setA s c r a 2
    rw [chanValue_eq] at hobserved
    exact ⟨t, hdone, ha, hl, hq, (hread c).trans hwritten, fun d hd => (hread d).trans (hothers d hd), hobserved, hframe⟩
  have write : ∃ t, done (chanWrite s c s.a) 2 = .next t ∧ t.a = s.a ∧ post s.a t := by
    rw [← chanWrite_setA]
    exact store s.a s.a
  exact ⟨hasWord9 rfl rfl rfl, hasWord9 rfl rfl rfl, hasWord9 rfl rfl rfl, write, store rAnd rAnd, store rOr rOr⟩

end Sys2Proof.Machine
end

section
/-! The special control instructions (45_special_control.md R360 to R365): what each of their endings leaves, in the terms
of the statements, and the statements (O57 to O60). -/

namespace Sys2Proof.Machine

/-- What each instruction that sets or clears one flag leaves alone (R360 to R362). -/
def FlagFrame (s t : State) : Prop :=
  t.a = s.a ∧ t.l = s.l ∧ t.q = s.q ∧ SameBanks s t ∧ SameErasable s t ∧ SameRequests s t ∧ SameChannels s t
    ∧ t.isr = s.isr ∧ t.rope = s.rope ∧ t.inputChans = s.inputChans ∧ t.env = s.env ∧ t.freeCount = s.freeCount
    ∧ NextAt t s.z ∧ Took s t 1

/-- EXTEND has an ending of its own, for EXT is not cleared by it (R360). -/
theorem execExtend_spec (s : State) :
    ∃ t, execExtend s = .next t ∧ t.ext = true ∧ t.inh = s.inh ∧ FlagFrame s t :=
  ⟨_, execExtend_eq s, rfl, rfl, rfl, rfl, rfl, ⟨rfl, rfl⟩, sameErasable_of_eq rfl, ⟨rfl, rfl⟩, ⟨rfl, rfl, rfl⟩, rfl, rfl,
    rfl, rfl, rfl, nextAt_of rfl rfl rfl rfl rfl rfl rfl rfl rfl rfl rfl rfl, rfl⟩

/-- INHINT and RELINT differ in the value INH takes (R361, R362). -/
theorem done_setInh (s : State) (inh : Bool) :
    ∃ t, done (s.setInh inh) 1 = .next t ∧ t.ext = false ∧ t.inh = inh ∧ FlagFrame s t := by
  obtain ⟨t, hdone, ha, hl, hq, ⟨hbanks, hcells, hrequests, ⟨hinh, hisr, hrope, hinputs, henv, hfree⟩, hchannels⟩,
    hnext, hext, htook⟩ := done_registersOnly (s.setInh inh) 1
  exact ⟨t, hdone, hext, hinh, ha, hl, hq, hbanks, hcells, hrequests, hchannels, hisr, hrope, hinputs, henv, hfree, hnext,
    htook⟩

/-- The four names of INDEX have one meaning (R363); it re-writes K and leaves A, L, Q and the banks. -/
theorem indexNext_spec (k : Addr) (s : State) :
    ∃ t, indexNext k s = .next t ∧ t.b = indexedWord (ovc (rdOp s k)) (fetchWord (reWrite s k) s.z) ∧ t.z = s.z + 1#12
      ∧ t.blit = true ∧ t.ext = s.ext ∧ t.a = s.a ∧ t.l = s.l ∧ t.q = s.q ∧ SameBanks s t ∧ SameOutside s t
      ∧ Reedited s (resolve s k) t ∧ Took s t 2 :=
  ⟨_, indexNext_eq k s, rfl, rfl, rfl, rfl, rfl, rfl, rfl, ⟨rfl, rfl⟩,
    ⟨⟨rfl, rfl⟩, ⟨rfl, rfl, rfl, rfl, rfl, rfl⟩, rfl, rfl, rfl⟩, reedited_reWrite s _ k rfl, rfl⟩

/-- ZRUPT is no editing register, so a plain write to it is a store of the word (10_state.md R41, 20_memory.md R111). -/
theorem storedErasable_zrupt (m : Memory) (w : Word) :
    storedErasable m (.eras 0#3 zruptOff) w = m.write (eraseKey 0#3 zruptOff) w := by
  have hedit : edit 0#3 zruptOff w = w := rfl
  rw [storedErasable, hedit]

/-- Settles O57: EXTEND by its own ending, INHINT and RELINT by the ordinary one. -/
theorem flagInstructions : Obligations.FlagInstructions := fun s =>
  ⟨⟨rfl, rfl⟩, ⟨rfl, rfl⟩, ⟨rfl, rfl⟩, execExtend_spec s, done_setInh s true, done_setInh s false⟩

/-- Settles O58: the four names share one meaning and differ in the width of the address. -/
theorem indexNextInstruction : Obligations.IndexNextInstruction := fun s =>
  ⟨fun k => ⟨hasWord10 rfl rfl rfl, hasWord10 rfl rfl rfl, indexNext_spec (ea k) s, indexNext_spec (ea k) s⟩,
    fun k => ⟨hasWord12 rfl rfl rfl, hasWord12 rfl rfl rfl, indexNext_spec k s, indexNext_spec k s⟩⟩

/-- Settles O59: B and Z come back from the two save words, and no cell is written. -/
theorem resumeInterrupted : Obligations.ResumeInterrupted := fun s =>
  ⟨⟨rfl, rfl⟩, _, execResume_eq s, rfl, rfl, rfl, rfl, rfl, rfl, rfl, rfl, ⟨rfl, rfl⟩, sameErasable_of_eq rfl, ⟨rfl, rfl⟩,
    ⟨rfl, rfl, rfl⟩, rfl, rfl, rfl, rfl, rfl, rfl⟩

/-- Settles O60: the entry writes ZRUPT alone, and the jump to address 0 fetches A. -/
theorem programmedInterrupt : Obligations.ProgrammedInterrupt := by
  intro c s
  refine ⟨hasWord9 rfl rfl rfl, _, execEdrupt_eq c s, rfl, ⟨rfl, rfl, rfl⟩, rfl, ?zrupt, rfl, rfl, rfl, ⟨rfl, rfl⟩,
    ⟨rfl, rfl⟩, ⟨rfl, rfl, rfl⟩, rfl, rfl, rfl, rfl, rfl, rfl⟩
  case zrupt => exact eraseRead_stored s _ (.eras 0#3 zruptOff) (zext15 s.z) (storedErasable_zrupt _ _).symm

end Sys2Proof.Machine
end

section
/-! The counter sequences (46_unprogrammed_sequences.md R380 to R388): the counted and shifted words, what a sequence that
stores a counter leaves alone, and the statements (O22 to O25). -/

namespace Sys2Proof.Machine

/-! ### The counted words -/

/-- A one's-complement counter after one count down: 0o40000 and 1 to -0, 0 to -1 (R384). -/
def countDown (w : Word) : Word :=
  if w = 0o40000#15 ∨ w = 1#15 then 0o77777#15 else if w = 0#15 then 0o77776#15 else w - 1#15

theorem countDown_toNat (w : Word) :
    (countDown w).toNat =
      if w.toNat = 0o40000 ∨ w.toNat = 1 then 0o77777 else if w.toNat = 0 then 0o77776 else w.toNat - 1 := by
  have hw := w.isLt
  unfold countDown
  simp only [← BitVec.toNat_inj, BitVec.toNat_ofNat]
  split
  · rfl
  · split
    · rfl
    · rw [BitVec.toNat_sub, BitVec.toNat_ofNat]
      omega

theorem ovc_countDown (w : Word) : ovc (add1c16 (sext16 w) minusOne) = countDown w := by
  have hw := w.isLt
  apply BitVec.eq_of_toNat_eq
  rw [ovc_toNat, add1c16_toNat, sext16_toNat, countDown_toNat]
  simp only [minusOne, BitVec.toNat_ofNat]
  split_ifs <;> omega

/-- DINC brings a positive count one nearer to zero, and 1 to -0 (R385). -/
theorem add1c15_minusOne {w : Word} (h0 : w ≠ 0#15) (hpos : w.toNat < 0o40000) :
    add1c15 w 0o77776#15 = if w = 1#15 then 0o77777#15 else w - 1#15 := by
  have hdown : (if w = 1#15 then 0o77777#15 else w - 1#15) = countDown w := by
    have hmin : w ≠ 0o40000#15 := by
      rintro rfl
      exact absurd hpos (by decide)
    simp only [countDown, hmin, h0, false_or, if_false]
  rw [hdown]
  apply BitVec.eq_of_toNat_eq
  rw [add1c15_toNat, countDown_toNat, BitVec.toNat_ofNat]
  have hne : w.toNat ≠ 0 := fun h => h0 (BitVec.eq_of_toNat_eq h)
  split_ifs <;> omega

/-- DINC brings a negative count one nearer to zero, and -1 to -0 (R385). -/
theorem add1c15_plusOne {w : Word} (hmax : w ≠ 0o77777#15) : add1c15 w 0o00001#15 = w + 1#15 := by
  have hw := w.isLt
  have hne : w.toNat ≠ 0o77777 := fun h => hmax (BitVec.eq_of_toNat_eq h)
  apply BitVec.eq_of_toNat_eq
  rw [add1c15_toNat, BitVec.toNat_add, BitVec.toNat_ofNat]
  split <;> omega

/-- A shift by one place with a bit coming in, as arithmetic on the word (R386, R387). -/
theorem extract_append_bit (w : Word) (bit : BitVec 1) :
    w.extractLsb' 0 14 ++ bit = (w <<< 1) + bit.setWidth 15 := by
  have hbit := bit.isLt
  apply BitVec.eq_of_toNat_eq
  rw [BitVec.toNat_append, ← Nat.shiftLeft_add_eq_or_of_lt hbit]
  simp only [BitVec.extractLsb'_toNat, BitVec.toNat_add, BitVec.toNat_shiftLeft, BitVec.toNat_setWidth, Nat.shiftLeft_eq,
    Nat.shiftRight_zero]
  omega

/-! ### A sequence that stores a counter -/

/-- What every sequence that stores a counter does, whatever it requests or emits (R380, R392): the counter at `off` holds
`w`, the rest is left alone, and 1 MCT has passed. -/
def CountsTo (s t : State) (off : EOff) (w : Word) : Prop := counter t off = w ∧ SequenceFrame s t off ∧ Took s t 1

/-- What a change of the cell at `off`, the requests, the channels, what has been observed and the time leaves alone. -/
theorem sequenceFrame_of_cells (s : State) (off : EOff) (cells : Memory) (latches : Latches) (requests : List CounterReq)
    (chans : Memory) (seen : List Observation) (time : Nat)
    (hcells : ∀ bank o, ¬(bank = 0#3 ∧ o = off) → cells.read (eraseKey bank o) = eraseRead s bank o) :
    SequenceFrame s { s with
      erasable := cells
      ruptReq := latches
      pending := requests
      chan := chans
      observed := seen
      mct := time } off :=
  ⟨rfl, rfl, rfl, rfl, rfl, rfl, rfl, ⟨rfl, rfl⟩, ⟨rfl, rfl, rfl, rfl, rfl, rfl⟩, rfl, hcells⟩

/-- A store of one cell of E0, with any change of the requests and of what has been observed. -/
theorem countsTo_of_erasable (s : State) (off : EOff) (w : Word) (latches : Latches) (requests : List CounterReq)
    (seen : List Observation) :
    CountsTo s { s with
      erasable := s.erasable.write (eraseKey 0#3 off) w
      ruptReq := latches
      pending := requests
      observed := seen
      mct := s.mct + 1 } off w := by
  have hread (bank : EBank) (o : EOff) := eraseRead_eraseWrite s 0#3 bank off o w
  refine ⟨(hread 0#3 off).trans (if_pos ⟨rfl, rfl⟩),
    sequenceFrame_of_cells s off _ _ _ _ _ _ fun bank o hne => (hread bank o).trans (if_neg ?_), rfl⟩
  rintro ⟨rfl, rfl⟩
  exact hne ⟨rfl, rfl⟩

/-- A sequence that does nothing but store its counter. -/
theorem setCounter_tick_spec (s : State) (off : EOff) (w : Word) :
    let t := (setCounter s off w).tick 1
    counter t off = w ∧ SequenceFrame s t off ∧ SameRequests s t ∧ SameChannels s t ∧ Took s t 1 := by
  obtain ⟨hcount, hframe, htook⟩ := countsTo_of_erasable s off w s.ruptReq s.pending s.observed
  exact ⟨hcount, hframe, ⟨rfl, rfl⟩, ⟨rfl, rfl, rfl⟩, htook⟩

/-! ### PINC -/

/-- The overflow of TIME1 is the one that asks for another sequence (R381). -/
theorem pincOverflow_pending (s : State) (c : PincCounter) :
    (pincOverflow s c).pending = if c = .time1 then s.pending ++ [.pinc .time2] else s.pending := by
  cases c <;> rfl

/-- Everything the overflow of a PINC can do. -/
theorem pincOverflow_eq (s : State) (c : PincCounter) :
    pincOverflow s c = { s with ruptReq := (pincOverflow s c).ruptReq, pending := (pincOverflow s c).pending } := by
  cases c <;> rfl

/-- The requests of an overflow do not depend on the counter it has left. -/
theorem pincOverflow_setCounter (s : State) (c : PincCounter) (off : EOff) (w : Word) :
    pincOverflow (setCounter s off w) c = setCounter (pincOverflow s c) off w := by
  cases c <;> rfl

/-- Everything a PINC can do: the count, and the requests of an overflow (R381). -/
theorem doSequence_pinc_eq (s : State) (c : PincCounter) :
    doSequence s (.pinc c) = { s with
      erasable := s.erasable.write (eraseKey 0#3 c.off) (countUp (counter s c.off))
      ruptReq := if counter s c.off = 0o37777#15 then (pincOverflow s c).ruptReq else s.ruptReq
      pending := if counter s c.off = 0o37777#15 then (pincOverflow s c).pending else s.pending
      mct := s.mct + 1 } := by
  simp only [doSequence, pinc, ovf_count_iff, ovc_count]
  split
  · rw [pincOverflow_setCounter, pincOverflow_eq]
    rfl
  · rfl

/-- Settles O22: the count is `countUp`, and each counter's overflow makes its own request. -/
theorem pincCounts : Obligations.PincCounts := by
  intro s c w t
  have ht : t = _ := doSequence_pinc_eq s c
  obtain ⟨hcount, hframe, htook⟩ : CountsTo s t c.off (countUp w) := ht ▸ countsTo_of_erasable s c.off _ _ _ s.observed
  refine ⟨hcount, ?pending, ?latches, hframe, ?channels, htook⟩
  case pending => rw [ht, ite_and, ← pincOverflow_pending]
  case latches =>
    rw [ht]
    cases c <;> rfl
  case channels =>
    rw [ht]
    exact ⟨rfl, rfl, rfl⟩

/-! ### MINC, PCDU and MCDU -/

/-- Settles O23: each stores its counter and does nothing else; MINC's count is `countDown`. -/
theorem plainCounts : Obligations.PlainCounts := by
  intro s
  refine ⟨fun c => ?minc, fun c => setCounter_tick_spec s c.off _, fun c => setCounter_tick_spec s c.off _⟩
  case minc =>
    have hminc : minc s c = setCounter s c.off (countDown (counter s c.off)) := by rw [minc, ovc_countDown]
    have hstore := setCounter_tick_spec s c.off (countDown (counter s c.off))
    rw [← hminc] at hstore
    exact hstore

/-! ### DINC -/

/-- Clearing bit 15 of a channel's word clears bits 16 and 15 of what its reading gives (R385). -/
theorem sext16_and_magnitude (w : Word) : sext16 (w &&& 0o37777#15) = sext16 w &&& 0o037777#16 := by
  have hw := w.isLt
  apply BitVec.eq_of_toNat_eq
  rw [sext16_toNat, BitVec.toNat_and, BitVec.toNat_and, sext16_toNat, show (0o37777#15).toNat = 2 ^ 14 - 1 from rfl,
    show (0o037777#16).toNat = 2 ^ 14 - 1 from rfl, Nat.and_two_pow_sub_one_eq_mod, Nat.and_two_pow_sub_one_eq_mod]
  omega

theorem sext16_bit14 (w : Word) : (sext16 w).getLsbD 14 = w.getLsbD 14 := by
  rw [sext16, BitVec.getLsbD_append]
  rfl

/-- A program that reads channel 0o13 sees whether TIME6 is counting (10_state.md R54). -/
theorem time6Enabled_eq (s : State) : time6Enabled s = (chanRead s 0o13#9).getLsbD 14 := by
  rw [chanRead_ordinary s (by decide) (by decide) (by decide), sext16_bit14]
  rfl

theorem chanRead_disableTime6 (s : State) (d : ChanNo) :
    chanRead (disableTime6 s) d = if d = 0o13#9 then chanRead s 0o13#9 &&& 0o037777#16 else chanRead s d := by
  have hread : chanRead s 0o13#9 = sext16 (s.chan.read 0o13) :=
    chanRead_ordinary s (by decide) (by decide) (by decide)
  rw [hread, ← sext16_and_magnitude]
  exact chanRead_setChan_write s (c := 0o13#9) (by decide) (by decide) (by decide) _ d

/-- A DINC that finds TIME6 at a zero stores nothing (R385). -/
theorem doSequence_dinc_of_zero {s : State} (h : counter s 0o31#8 = 0#15 ∨ counter s 0o31#8 = 0o77777#15) :
    doSequence s .dinc = { s with
      ruptReq := s.ruptReq.put .t6rupt true
      chan := (disableTime6 s).chan
      observed := .zout :: s.observed
      mct := s.mct + 1 } := by
  have hzero : isZero15 (counter s time6Off) = true := (isZero15_iff _).mpr h
  simp only [doSequence, dinc, hzero, if_true]
  rfl

theorem doSequence_dinc_of_positive {s : State} (h0 : counter s 0o31#8 ≠ 0#15)
    (hpos : (counter s 0o31#8).toNat < 0o40000) :
    doSequence s .dinc = ((setCounter s time6Off
      (if counter s 0o31#8 = 1#15 then 0o77777#15 else counter s 0o31#8 - 1#15)).observe .pout).tick 1 := by
  have hzero : isZero15 (counter s time6Off) ≠ true := by
    intro h
    rcases (isZero15_iff _).mp h with h | h
    · exact h0 h
    · exact absurd (h ▸ hpos) (by decide)
  have hsign : (counter s time6Off).getLsbD 14 ≠ true := mt (bit14_iff _).mp (Nat.not_le.mpr hpos)
  simp only [doSequence, dinc, if_neg hzero, if_neg hsign]
  rw [← add1c15_minusOne h0 hpos]
  rfl

theorem doSequence_dinc_of_negative {s : State} (hmax : counter s 0o31#8 ≠ 0o77777#15)
    (hneg : 0o40000 ≤ (counter s 0o31#8).toNat) :
    doSequence s .dinc = ((setCounter s time6Off (counter s 0o31#8 + 1#15)).observe .mout).tick 1 := by
  have hzero : isZero15 (counter s time6Off) ≠ true := by
    intro h
    rcases (isZero15_iff _).mp h with h | h
    · exact absurd (h ▸ hneg) (by decide)
    · exact hmax h
  have hsign : (counter s time6Off).getLsbD 14 = true := (bit14_iff _).mpr hneg
  simp only [doSequence, dinc, if_neg hzero, if_pos hsign]
  rw [← add1c15_plusOne hmax]
  rfl

/-- What a DINC of a count other than zero does, whatever its sign. -/
theorem setCounter_observe_spec (s : State) (off : EOff) (w : Word) (pulse : Observation) :
    let t := ((setCounter s off w).observe pulse).tick 1
    CountsTo s t off w ∧ t.pending = s.pending ∧ t.observed = pulse :: s.observed ∧ t.ruptReq = s.ruptReq
      ∧ t.chan = s.chan :=
  ⟨countsTo_of_erasable s off w s.ruptReq s.pending (pulse :: s.observed), rfl, rfl, rfl, rfl⟩

/-- What a DINC of a zero does: the counter stays, and counting is disabled. -/
theorem dinc_zero_spec {s : State} (h : counter s 0o31#8 = 0#15 ∨ counter s 0o31#8 = 0o77777#15) :
    let t := doSequence s .dinc
    CountsTo s t 0o31#8 (counter s 0o31#8) ∧ t.pending = s.pending ∧ t.observed = .zout :: s.observed
      ∧ t.ruptReq = s.ruptReq.put .t6rupt true ∧ chanRead t 0o13#9 = (chanRead s 0o13#9) &&& 0o037777#16
      ∧ ∀ c, c ≠ 0o13#9 → chanRead t c = chanRead s c := by
  intro t
  have ht : t = _ := doSequence_dinc_of_zero h
  have hread (c : ChanNo) : chanRead t c = if c = 0o13#9 then chanRead s 0o13#9 &&& 0o037777#16 else chanRead s c := by
    rw [ht, ← chanRead_disableTime6]
    rfl
  refine ⟨?counts, ?pending, ?observed, ?latches, (hread 0o13#9).trans (if_pos rfl),
    fun c hc => (hread c).trans (if_neg hc)⟩
  case counts => exact ht ▸ ⟨rfl, sequenceFrame_of_cells s 0o31#8 s.erasable _ _ _ _ _ fun _ _ _ => rfl, rfl⟩
  all_goals rw [ht]

/-- Settles O24: a zero, a positive and a negative count by the three cases of DINC. -/
theorem dincCounts : Obligations.DincCounts := by
  intro s w t
  have zero (h : w = 0#15 ∨ w = 0o77777#15) := dinc_zero_spec h
  have positive (h0 : w ≠ 0#15) (hpos : w.toNat < 0o40000) :=
    doSequence_dinc_of_positive h0 hpos ▸ setCounter_observe_spec s 0o31#8 _ .pout
  have negative (hmax : w ≠ 0o77777#15) (hneg : 0o40000 ≤ w.toNat) :=
    doSequence_dinc_of_negative hmax hneg ▸ setCounter_observe_spec s 0o31#8 _ .mout
  have counts : ∃ x, CountsTo s t 0o31#8 x ∧ t.pending = s.pending := by
    by_cases hzero : w = 0#15 ∨ w = 0o77777#15
    · obtain ⟨hcount, hpending, _⟩ := zero hzero
      exact ⟨_, hcount, hpending⟩
    · obtain ⟨h0, hmax⟩ := not_or.mp hzero
      rcases Nat.lt_or_ge w.toNat 0o40000 with hpos | hneg
      · obtain ⟨hcount, hpending, _⟩ := positive h0 hpos
        exact ⟨_, hcount, hpending⟩
      · obtain ⟨hcount, hpending, _⟩ := negative hmax hneg
        exact ⟨_, hcount, hpending⟩
  obtain ⟨_, ⟨_, hframe, htook⟩, hpending⟩ := counts
  refine ⟨hframe, hpending, htook, fun h => ?zero, fun h0 hpos => ?positive, fun hmax hneg => ?negative, ?request⟩
  case zero =>
    obtain ⟨⟨hcount, _⟩, _, hrest⟩ := zero h
    exact ⟨hcount, hrest⟩
  case positive =>
    obtain ⟨⟨hcount, _⟩, _, hrest⟩ := positive h0 hpos
    exact ⟨hcount, hrest⟩
  case negative =>
    obtain ⟨⟨hcount, _⟩, _, hrest⟩ := negative hmax hneg
    exact ⟨hcount, hrest⟩
  case request =>
    rw [← time6Enabled_eq]
    rfl

/-! ### SHINC and SHANC -/

/-- Everything a shift can do: the shifted word, and the interrupt of a 1 that leaves bit 15 (R386, R387). -/
theorem shiftCounter_tick_eq (s : State) (c : ShiftCounter) (bit : BitVec 1) :
    (shiftCounter s c bit).tick 1 = { s with
      erasable := s.erasable.write (eraseKey 0#3 c.off) ((counter s c.off <<< 1) + bit.setWidth 15)
      ruptReq := if 0o40000 ≤ (counter s c.off).toNat then s.ruptReq.put c.rupt true else s.ruptReq
      mct := s.mct + 1 } := by
  simp only [shiftCounter, bit14_iff, extract_append_bit]
  split <;> rfl

/-- SHINC and SHANC are one shift, and differ in the bit that comes in. -/
theorem doSequence_shift (s : State) (c : ShiftCounter) (one : Bool) :
    doSequence s (if one then .shanc c else .shinc c) = (shiftCounter s c (BitVec.ofBool one)).tick 1 := by
  cases one <;> rfl

/-- Settles O25: the two sequences as one shift, whose interrupt is the counter's own. -/
theorem shiftCounts : Obligations.ShiftCounts := by
  intro s c one w t
  have ht : t = _ := (doSequence_shift s c one).trans (shiftCounter_tick_eq s c _)
  obtain ⟨hcount, hframe, htook⟩ : CountsTo s t c.off ((w <<< 1) + (BitVec.ofBool one).setWidth 15) :=
    ht ▸ countsTo_of_erasable s c.off _ _ s.pending s.observed
  have hbit : (BitVec.ofBool one).setWidth 15 = if one then 1#15 else 0#15 := by cases one <;> rfl
  refine ⟨hbit ▸ hcount, ?latches, ?pending, hframe, ?channels, htook⟩
  case latches =>
    rw [ht]
    cases c <;> rfl
  case pending => rw [ht]
  case channels =>
    rw [ht]
    exact ⟨rfl, rfl, rfl⟩

end Sys2Proof.Machine
end

section
/-! Interrupts: when one is possible and which is taken (60_exceptions.md R523, R526), what its entry leaves in each part of
the state (R525), and the return from it (R528): the statements O7, O8 and O9. -/

namespace Sys2Proof.Machine

/-! ### Which interrupt is taken -/

/-- Each condition of R523 by its own clause. -/
theorem interruptPossible_iff (s : State) :
    interruptPossible s = true ↔ s.inh = false ∧ s.isr = false ∧ s.ext = false ∧ ovf s.a = .none ∧ s.blit = false
      ∧ s.b ≠ 0o00003#15 ∧ s.b ≠ 0o00004#15 ∧ s.b ≠ 0o00006#15 := by
  simp only [interruptPossible, Bool.and_eq_true, Bool.not_eq_true', Bool.or_eq_false_iff, decide_eq_true_iff,
    beq_eq_false_iff_ne, and_assoc]

theorem mem_interruptOrder (i : Interrupt) : i ∈ interruptOrder := by cases i <;> decide

/-- The order of priority is that of the numbers (R526). -/
theorem interruptOrder_rising : interruptOrder.Pairwise (fun i j => i.number < j.number) := by decide

/-- In the order of priority, the first interrupt that meets a condition is the one of the lowest number. -/
theorem find?_interruptOrder_eq_some_iff (p : Interrupt → Bool) (i : Interrupt) :
    interruptOrder.find? p = some i ↔ p i = true ∧ ∀ j : Interrupt, j.number < i.number → p j = false := by
  simp only [List.find?_eq_some_iff_append, Bool.not_eq_true']
  refine and_congr_right fun _ => ⟨?lowest, fun hlower => ?first⟩
  case lowest =>
    rintro ⟨before, after, horder, hbefore⟩ j hj
    have hrising := interruptOrder_rising
    have hmem := mem_interruptOrder j
    rw [horder] at hrising hmem
    obtain ⟨_, hafter, _⟩ := List.pairwise_append.mp hrising
    rcases List.mem_append.mp hmem with hmem | hmem
    · exact hbefore j hmem
    · rcases List.mem_cons.mp hmem with rfl | hmem
      · exact absurd hj (lt_irrefl _)
      · exact absurd hj (List.rel_of_pairwise_cons hafter hmem).not_gt
  case first =>
    obtain ⟨before, after, horder⟩ := List.append_of_mem (mem_interruptOrder i)
    have hrising := interruptOrder_rising
    rw [horder] at hrising
    obtain ⟨_, _, hbelow⟩ := List.pairwise_append.mp hrising
    exact ⟨before, after, horder, fun j hj => hlower j (hbelow j hj i (List.mem_cons_self ..))⟩

/-- Settles O7: the conditions one by one, and the search in the order of priority. -/
theorem interruptConditions : Obligations.InterruptConditions := by
  intro s
  refine ⟨interruptPossible_iff s, fun i => ?taken, ?none⟩
  case taken =>
    rw [← find?_interruptOrder_eq_some_iff, interruptToTake]
    cases interruptPossible s <;> simp
  case none =>
    rw [interruptToTake]
    cases interruptPossible s <;> simp [mem_interruptOrder]

/-! ### The entry and the return -/

theorem Interrupt.vector_toNat (i : Interrupt) : i.vector.toNat = 0o4000 + 4 * i.number := by cases i <;> rfl

/-- A vector is in fixed-fixed memory, so no bank register matters to it (R521, 20_memory.md R105). -/
theorem fetchWord_vector (s : State) (i : Interrupt) :
    fetchWord s i.vector = s.rope.read (0o4000 + 4 * i.number) := by
  have hfixed : 0o4000 ≤ i.vector.toNat := i.vector_toNat ▸ Nat.le_add_right ..
  rw [fetchWord, memRead_fixedFixed s hfixed, i.vector_toNat]

/-- The entry writes the two save words and no other cell (R525). -/
theorem eraseRead_vectorTo (s : State) (i : Interrupt) (bank : EBank) (off : EOff) :
    eraseRead (vectorTo s i) bank off =
      if bank = 0#3 ∧ off = bruptOff then s.b
      else if bank = 0#3 ∧ off = zruptOff then zext15 s.z
      else eraseRead s bank off := by
  have hcells : (vectorTo s i).erasable = (saveB (saveZ s)).erasable := rfl
  have hsaved : eraseRead (vectorTo s i) bank off = eraseRead (saveB (saveZ s)) bank off := by
    rw [eraseRead, hcells, eraseRead]
  have hb : (saveZ s).b = s.b := rfl
  rw [hsaved, saveB, hb, saveZ, eraseRead_eraseWrite, eraseRead_eraseWrite]
  simp only [eq_comm]

theorem eraseRead_vectorTo_zrupt (s : State) (i : Interrupt) : eraseRead (vectorTo s i) 0#3 zruptOff = zext15 s.z :=
  (eraseRead_vectorTo s i 0#3 zruptOff).trans ((if_neg (by decide)).trans (if_pos ⟨rfl, rfl⟩))

theorem eraseRead_vectorTo_brupt (s : State) (i : Interrupt) : eraseRead (vectorTo s i) 0#3 bruptOff = s.b :=
  (eraseRead_vectorTo s i 0#3 bruptOff).trans (if_pos ⟨rfl, rfl⟩)

theorem eraseRead_vectorTo_other (s : State) (i : Interrupt) {bank : EBank} {off : EOff}
    (h : ¬(bank = 0#3 ∧ (off = zruptOff ∨ off = bruptOff))) :
    eraseRead (vectorTo s i) bank off = eraseRead s bank off := by
  obtain ⟨hz, hb⟩ := not_or.mp (and_or_left.not.mp h)
  rw [eraseRead_vectorTo, if_neg hb, if_neg hz]

/-- Settles O8: the cells by `eraseRead_vectorTo`, every other field from the record update that the entry is. -/
theorem interruptEntry : Obligations.InterruptEntry := by
  intro s i henv hpending htake
  have htakes : TakesInterrupt s i := by
    unfold TakesInterrupt
    rw [nextBoundary_of_env_nil henv, atBoundary_of_env_nil henv]
    exact ⟨rfl, hpending, htake⟩
  have hstep : step s = .next (vectorTo s i) := by rw [step_eq_vectorTo htakes, atBoundary_of_env_nil henv]
  refine ⟨_, hstep, eraseRead_vectorTo_zrupt s i, eraseRead_vectorTo_brupt s i,
    fun _ _ h => eraseRead_vectorTo_other s i h, ?_⟩
  rw [vectorTo_eq, fetchWord_vector]
  exact ⟨rfl, rfl, ⟨rfl, rfl, rfl⟩, rfl, rfl, rfl, ⟨rfl, rfl⟩, ⟨rfl, rfl, rfl⟩, rfl, rfl, rfl, rfl, rfl, rfl, rfl, rfl⟩

/-- Settles O9: what RESUME takes from the save words is what the entry put there, and Z comes back from its 15 bits. -/
theorem resumeAfterInterrupt : Obligations.ResumeAfterInterrupt := by
  intro s r i hzrupt hbrupt
  refine ⟨_, execResume_eq r, hbrupt.trans (eraseRead_vectorTo_brupt s i), ?z, rfl, rfl⟩
  case z =>
    have hsaved : eraseRead r 0#3 zruptOff = zext15 s.z := hzrupt.trans (eraseRead_vectorTo_zrupt s i)
    show (eraseRead r 0#3 zruptOff).extractLsb' 0 12 = s.z
    rw [hsaved, zext15_back]

end Sys2Proof.Machine
end

section
/-! Every instruction goes on, but for the pairs of field 0 (20_memory.md R114, 60_exceptions.md R533), and none clears a
request latch (R524): both by the ending of its meaning; then the same for every step, and the statements O10 and O13. -/

namespace Sys2Proof.Machine

/-! ### Latches that stay set -/

/-- Every latch that is set in `s` is set in `t`. -/
def LatchesKept (s t : State) : Prop := ∀ i, s.ruptReq.get i = true → t.ruptReq.get i = true

namespace LatchesKept

variable {s t u : State}

protected theorem of_eq (h : t.ruptReq = s.ruptReq) : LatchesKept s t := fun _ hi => h ▸ hi

protected theorem refl (s : State) : LatchesKept s s := fun _ hi => hi

protected theorem trans (h : LatchesKept s u) (h' : LatchesKept u t) : LatchesKept s t := fun i hi => h' i (h i hi)

protected theorem ite {p : Prop} [Decidable p] (ht : LatchesKept s t) (hu : LatchesKept s u) :
    LatchesKept s (if p then t else u) := by
  split
  · exact ht
  · exact hu

/-- A request sets a latch and clears none (R522). -/
protected theorem raise (s : State) (i : Interrupt) : LatchesKept s (raise s i) := by
  intro j hj
  simp [Machine.raise, hj]

end LatchesKept

/-! ### The operations that leave the latches alone -/

@[simp] theorem wrOp_ruptReq (s : State) (k : Addr) (v : Acc) : (wrOp s k v).ruptReq = s.ruptReq := by rw [wrOp_eq]

@[simp] theorem reWrite_ruptReq (s : State) (k : Addr) : (reWrite s k).ruptReq = s.ruptReq := by rw [reWrite_eq]

@[simp] theorem chanWrite_ruptReq (s : State) (c : ChanNo) (v : Acc) : (chanWrite s c v).ruptReq = s.ruptReq := by
  rw [chanWrite_eq]

@[simp] theorem skip_ruptReq (s : State) (n : Addr) : (skip s n).ruptReq = s.ruptReq := rfl

@[simp] theorem tsOverflow_ruptReq (s : State) : (tsOverflow s).ruptReq = s.ruptReq := by
  unfold tsOverflow
  split <;> rfl

@[simp] theorem exchangeA_ruptReq (k : Addr) (s : State) : (exchangeA k s).ruptReq = s.ruptReq := wrOp_ruptReq s k _

@[simp] theorem exchangeL_ruptReq (k : Addr) (s : State) : (exchangeL k s).ruptReq = s.ruptReq := wrOp_ruptReq s k _

@[simp] theorem exchangeQ_ruptReq (k : Addr) (s : State) : (exchangeQ k s).ruptReq = s.ruptReq := wrOp_ruptReq s k _

@[simp] theorem loadPair_ruptReq (g : Acc → Acc) (f : Addr) (s : State) : (loadPair g f s).ruptReq = s.ruptReq := by
  unfold loadPair
  split
  · rfl
  · rw [loadHigh_eq, loadLow_eq]

/-! ### The operations that set latches -/

theorem locOverflow_latchesKept (s : State) (loc : Loc) : LatchesKept s (locOverflow s loc) := by
  have hcounter (off : EOff) : LatchesKept s (counterOverflow s off) := by
    unfold counterOverflow
    split
    case h_1 | h_6 => exact .of_eq rfl
    all_goals exact .raise s _
  cases loc with
  | eras bank off => exact .ite (hcounter off) (.refl s)
  | reg | fixed | noRope => exact .refl s

theorem storeCount_latchesKept (k : Addr) (sum : Acc) (s : State) : LatchesKept s (storeCount k sum s) := by
  have hrequests : LatchesKept s (countRequests s (resolve s k) sum) := .ite (locOverflow_latchesKept s _) (.refl s)
  rw [storeCount_eq]
  exact hrequests.trans (.of_eq (wrOp_ruptReq _ k sum))

theorem setCounter_latchesKept (s : State) (off : EOff) (w : Word) : LatchesKept s (setCounter s off w) := .of_eq rfl

theorem pinc_latchesKept (s : State) (c : PincCounter) : LatchesKept s (pinc s c) := by
  have hoverflow (u : State) : LatchesKept u (pincOverflow u c) := by
    cases c with
    | time3 | time4 | time5 => exact .raise u _
    | _ => exact .of_eq rfl
  have hcount := setCounter_latchesKept s c.off
  exact .ite ((hcount _).trans (hoverflow _)) (hcount _)

theorem dinc_latchesKept (s : State) : LatchesKept s (dinc s) := by
  have hzero : LatchesKept s (disableTime6 (s.observe .zout)) := .of_eq rfl
  have hcount (w : Word) (pulse : Observation) : LatchesKept s ((setCounter s time6Off w).observe pulse) :=
    setCounter_latchesKept s time6Off w
  unfold dinc
  exact .ite (hzero.trans (.raise _ .t6rupt)) (.ite (hcount _ _) (hcount _ _))

theorem shiftCounter_latchesKept (s : State) (c : ShiftCounter) (bit : BitVec 1) :
    LatchesKept s (shiftCounter s c bit) :=
  have hshift := setCounter_latchesKept s c.off
  .ite ((hshift _).trans (.raise _ c.rupt)) (hshift _)

theorem doSequence_latchesKept (s : State) (r : CounterReq) : LatchesKept s (doSequence s r) := by
  have htick {u : State} (h : LatchesKept s u) : LatchesKept s (u.tick 1) := h
  refine htick ?_
  cases r with
  | pinc c => exact pinc_latchesKept s c
  | dinc => exact dinc_latchesKept s
  | shinc c => exact shiftCounter_latchesKept s c _
  | shanc c => exact shiftCounter_latchesKept s c _
  | minc c | pcdu c | mcdu c => exact setCounter_latchesKept s c.off _

theorem applyEvent_latchesKept (s : State) (e : EnvEvent) : LatchesKept s (applyEvent s e) := by
  cases e with
  | keyRupt1 | keyRupt2 | downRupt | radarRupt => exact .raise s _
  | handRupt => exact .ite (.raise s .rupt10) (.refl s)
  | count | channel | scaler | drain => exact .of_eq (by rw [applyEvent_eq])

theorem atBoundary_latchesKept (s : State) : LatchesKept s (atBoundary s) :=
  atBoundary_induct (fun u e hu => hu.trans (applyEvent_latchesKept u e)) s (.of_eq rfl)

theorem goj_latchesKept (s : State) : LatchesKept s (goj s) := .of_eq (by rw [goj_eq])

/-- The entry of an interrupt clears its own latch (D14) and leaves the others. -/
theorem vectorTo_get (s : State) (i j : Interrupt) :
    (vectorTo s i).ruptReq.get j = if i = j then false else s.ruptReq.get j := by
  rw [vectorTo_eq]
  exact Latches.get_put s.ruptReq i j false

/-! ### Instructions that go on -/

/-- The answer, given from `s`, is a next state, in which every latch that was set is set. -/
def GoesOn (s : State) (r : Result) : Prop := ∃ t, r = .next t ∧ LatchesKept s t

namespace GoesOn

variable {s u : State}

protected theorem next (h : LatchesKept s u) : GoesOn s (.next u) := ⟨u, rfl, h⟩

protected theorem done (h : LatchesKept s u) (n : Nat) : GoesOn s (done u n) := .next h

protected theorem doneB (h : LatchesKept s u) (n : Nat) : GoesOn s (doneB u n) := .next h

protected theorem ite {p : Prop} [Decidable p] {r r' : Result} (hr : GoesOn s r) (hr' : GoesOn s r') :
    GoesOn s (if p then r else r') := by
  split
  · exact hr
  · exact hr'

end GoesOn

theorem transferControl_goesOn (k : Addr) (s : State) (n : Nat) : GoesOn s (transferControl k s n) :=
  .doneB (.of_eq rfl) n

theorem transferNoReturn_goesOn (k : Addr) (s : State) : GoesOn s (transferNoReturn k s) := .doneB (.of_eq rfl) 1

theorem indexNext_goesOn (k : Addr) (s : State) : GoesOn s (indexNext k s) := by
  rw [indexNext_eq]
  exact .next (.of_eq rfl)

theorem execDv_goesOn (k : EAddr) (s : State) : GoesOn s (execDv k s) := by
  unfold execDv
  dsimp only
  split
  · exact .done (.of_eq rfl) 6
  · exact .done (.of_eq rfl) 6

theorem multiply_goesOn (k : Addr) (s : State) : GoesOn s (multiply k s) :=
  .ite (.done (.of_eq rfl) 3) (.done (.of_eq rfl) 3)

/-! The pairs, each of which is given by its field, which is not 0 (R114). -/

section

variable {f : Addr} (hf : f ≠ 0#12) (s : State)
include hf

theorem doubleAddToStorage_goesOn : GoesOn s (doubleAddToStorage f s) := by
  rw [doubleAddToStorage, if_neg hf]
  exact .ite (.done (.of_eq rfl) 3) (.done (.of_eq (by simp)) 3)

theorem doubleClearAndAdd_goesOn : GoesOn s (doubleClearAndAdd f s) := by
  rw [doubleClearAndAdd_eq hf]
  exact .done (.of_eq (loadPair_ruptReq _ f s)) 3

theorem doubleClearAndSubtract_goesOn : GoesOn s (doubleClearAndSubtract f s) := by
  rw [doubleClearAndSubtract_eq hf]
  exact .done (.of_eq (loadPair_ruptReq _ f s)) 3

theorem doubleExchange_goesOn : GoesOn s (doubleExchange f s) := by
  rw [doubleExchange, if_neg hf]
  exact .ite (.done (.of_eq rfl) 3) (.done (.of_eq (by simp)) 3)

end

/-- The four pairs of field 0. -/
theorem fieldZero_iff (i : Instr) :
    i.fieldZero = true ↔ i = .das 0#10 ∨ i = .dxch 0#10 ∨ i = .dca 0#12 ∨ i = .dcs 0#12 := by
  simp only [Instr.fieldZero, Bool.or_eq_true, beq_iff_eq, or_assoc]

/-- No operand, address or result traps (R520 (c), R533); of the instructions only INCR and AUG set latches (R203). -/
theorem exec_goesOn {i : Instr} (hfield : i.fieldZero = false) (s : State) : GoesOn s (exec i s) := by
  have hpair := mt (fieldZero_iff i).mpr (Bool.eq_false_iff.mp hfield)
  simp only [not_or] at hpair
  obtain ⟨hdas, hdxch, hdca, hdcs⟩ := hpair
  cases i with
  | das f => exact doubleAddToStorage_goesOn (ea_ne fun h => hdas (congrArg _ h)) s
  | dxch f => exact doubleExchange_goesOn (ea_ne fun h => hdxch (congrArg _ h)) s
  | dca f => exact doubleClearAndAdd_goesOn (fun h => hdca (congrArg _ h)) s
  | dcs f => exact doubleClearAndSubtract_goesOn (fun h => hdcs (congrArg _ h)) s
  | ddoubl => exact doubleAddToStorage_goesOn (f := 1#12) (by decide) s
  | dtcf => exact doubleExchange_goesOn (f := 5#12) (by decide) s
  | dtcb => exact doubleExchange_goesOn (f := 6#12) (by decide) s
  | dcom => exact doubleClearAndSubtract_goesOn (f := 1#12) (by decide) s
  | incr k | aug k => exact .done (storeCount_latchesKept (ea k) _ s) 2
  | tc k | tcr k => exact transferControl_goesOn k s 1
  | xxalq | xlq | returnQ => exact transferControl_goesOn _ s 1
  | tcf k => exact transferNoReturn_goesOn k s
  | bzf k | bzmf k => exact .ite (transferNoReturn_goesOn k s) (.done (.refl s) 2)
  | index k | ndx k => exact indexNext_goesOn (ea k) s
  | indexExt k | ndxExt k => exact indexNext_goesOn k s
  | extend => exact ⟨_, execExtend_eq s, .of_eq rfl⟩
  | resume => exact .doneB (.of_eq rfl) 2
  | edrupt c => exact ⟨_, execEdrupt_eq c s, .of_eq rfl⟩
  | relint | inhint => exact .done (.of_eq rfl) 1
  | dv k => exact execDv_goesOn k s
  | mp k => exact multiply_goesOn k s
  | square => exact multiply_goesOn 0#12 s
  | mask | msk | read | rand | ror | rxor => exact .done (.of_eq rfl) 2
  | ca | cs | cae | caf | noop | com | ad | double | su | msu | ccs | ads | dim | ts | ovsk | tcaa | xch | lxch | zl | qxch
  | zq | write | wand | wor => exact .done (.of_eq (by simp)) 2

/-- The refusals of log 12, by name. -/
theorem exec_fieldZero {i : Instr} (hfield : i.fieldZero = true) (s : State) :
    ∃ name, exec i s = .refused (.dpFieldZero name) := by
  rcases (fieldZero_iff i).mp hfield with rfl | rfl | rfl | rfl
  · exact ⟨"DAS", rfl⟩
  · exact ⟨"DXCH", rfl⟩
  · exact ⟨"DCA", rfl⟩
  · exact ⟨"DCS", rfl⟩

theorem exec_latchesKept {i : Instr} {s t : State} (h : exec i s = .next t) : LatchesKept s t := by
  cases hfield : i.fieldZero with
  | true =>
    obtain ⟨name, hrefused⟩ := exec_fieldZero hfield s
    cases hrefused.symm.trans h
  | false =>
    obtain ⟨u, hnext, hkept⟩ := exec_goesOn hfield s
    cases hnext.symm.trans h
    exact hkept

/-! ### Every step -/

/-- Settles O10: of the four things a step can be, only the entry of an interrupt clears a latch, and that one its own. -/
theorem latchesStay : Obligations.LatchesStay := by
  intro s t i h hset
  have hboundary : (atBoundary s).ruptReq.get i = true := atBoundary_latchesKept s i hset
  refine ⟨fun hother => ?stays, fun htakes => ?cleared⟩
  case stays =>
    rcases step_cases h with ⟨_, rfl⟩ | ⟨_, r, rest, _, rfl⟩ | ⟨j, htakes, rfl⟩ | ⟨_, hexec⟩
    · exact goj_latchesKept _ i hboundary
    · exact doSequence_latchesKept ((atBoundary s).setPending rest) r i hboundary
    · have hne : j ≠ i := fun hj => hother (hj ▸ htakes)
      rw [vectorTo_get, if_neg hne, hboundary]
    · exact exec_latchesKept hexec i hboundary
  case cleared =>
    cases (step_eq_vectorTo htakes).symm.trans h
    rw [vectorTo_get, if_pos rfl]

/-- Settles O13: what comes before the instruction always goes on, and the instruction does unless its field is 0. -/
theorem stepGoesOn : Obligations.StepGoesOn := by
  refine ⟨fun s => ?step, fun s => ⟨rfl, rfl, rfl, rfl⟩⟩
  cases hgoj : (nextBoundary s).goj with
  | true => exact .inl ⟨_, step_eq_goj hgoj⟩
  | false =>
    by_cases hpending : (atBoundary s).pending = []
    · cases htake : interruptToTake (atBoundary s) with
      | some i => exact .inl ⟨_, step_eq_vectorTo ⟨hgoj, hpending, htake⟩⟩
      | none =>
        rw [step_eq_exec ⟨hgoj, hpending, htake⟩]
        cases hfield : (instrAt s).fieldZero with
        | true => exact .inr ⟨hfield, exec_fieldZero hfield _⟩
        | false =>
          obtain ⟨t, hnext, _⟩ := exec_goesOn hfield (atBoundary s)
          exact .inl ⟨t, hnext⟩
    · obtain ⟨r, rest, _, hstep⟩ := step_eq_doSequence hgoj hpending
      exact .inl ⟨_, hstep⟩

end Sys2Proof.Machine
end

section
/-! GOJ and power-up (70_reset_and_hazards.md R570, R571): what GOJ sets, what it leaves alone, and that power-up, which is
one GOJ of the initial state, has the items that R571 fixes. -/

namespace Sys2Proof.Machine

/-! ### GOJ -/

/-- The restart: fixed-fixed memory, so that the banks play no part. -/
theorem goj_holdsNext (s : State) : HoldsNext (goj s) (s.rope.read 0o4000) 0o4000#12 := by
  rw [goj_eq]
  exact ⟨rfl, rfl, rfl⟩

@[simp] theorem goj_isr (s : State) : (goj s).isr = false := by rw [goj_eq]

@[simp] theorem goj_ext (s : State) : (goj s).ext = false := by rw [goj_eq]

@[simp] theorem goj_pending (s : State) : (goj s).pending = s.pending := by rw [goj_eq]

theorem goj_registers (s : State) : (goj s).a = s.a ∧ (goj s).l = s.l ∧ (goj s).q = s.q := by
  rw [goj_eq]
  exact ⟨rfl, rfl, rfl⟩

theorem goj_outside (s : State) :
    (goj s).inh = s.inh ∧ (goj s).rope = s.rope ∧ (goj s).inputChans = s.inputChans ∧ (goj s).env = s.env
      ∧ (goj s).freeCount = s.freeCount := by
  rw [goj_eq]
  exact ⟨rfl, rfl, rfl, rfl, rfl⟩

theorem goj_took (s : State) : Took s (goj s) 2 := by rw [goj_eq, Took]

theorem goj_sameBanks (s : State) : SameBanks s (goj s) := by
  rw [goj_eq]
  exact ⟨rfl, rfl⟩

theorem goj_sameErasable (s : State) : SameErasable s (goj s) := sameErasable_of_eq (by rw [goj_eq])

theorem goj_sameRequests (s : State) : SameRequests s (goj s) := by
  rw [goj_eq]
  exact ⟨rfl, rfl⟩

theorem goj_sameChannels (s : State) : SameChannels s (goj s) := by
  rw [goj_eq]
  exact ⟨rfl, rfl, rfl⟩

/-- Settles O6: a step at a boundary with GOJ is GOJ of the boundary's state, and each part is a lemma about GOJ. -/
theorem gojRestarts : Obligations.GojRestarts := by
  intro s hgoj u
  obtain ⟨ha, hl, hq⟩ := goj_registers u
  exact ⟨goj u, step_eq_goj hgoj, goj_isr u, goj_ext u, goj_holdsNext u, goj_took u, ha, hl, hq, goj_sameBanks u,
    goj_sameErasable u, goj_sameRequests u, goj_sameChannels u, goj_outside u⟩

/-! ### Power-up -/

/-- The state on which power-up performs its GOJ: nothing pending, and where R571 leaves `InitState` free, 0 (log 1 to 3). -/
def initState : State := { State.reset with z := 0, mct := 0 }

theorem reset_eq_goj_initState : State.reset = goj initState := reset_is_goj

theorem initState_inv : initState.Inv := (State.inv_iff initState).mpr ⟨rfl, rfl, rfl, nofun⟩

/-- Address 7 reads 0 in every state (10_state.md R29). -/
theorem memRead_seven (s : State) : memRead s 7#12 = 0#15 := memRead_regAddr s .zero

/-- Settles O16: every item is one that GOJ sets or keeps, or that every state has. -/
theorem powerUp : Obligations.PowerUp := by
  have hinv : (goj initState).Inv := (goj_keeps initState).inv initState_inv
  obtain ⟨hb, hz, hblit⟩ := goj_holdsNext initState
  unfold Obligations.PowerUp
  rw [reset_eq_goj_initState]
  exact ⟨hz, hb, hblit, goj_ext initState, goj_isr initState, goj_pending initState, memRead_seven _, hinv⟩

end Sys2Proof.Machine
end
